-- ==== Sys2Proof/Word.lean ====
section
/-! DEFINITION. The word types of the core and the accessors of its sixteen-entry and thirty-two-entry tables. -/

namespace Sys2Proof

/-- A data word: 16 bits (R2). -/
abbrev Word := BitVec 16

/-- A microword: 32 bits (R2). -/
abbrev UWord := BitVec 32

/-- A task number, 0 to 15 (R3). -/
abbrev Task := BitVec 4

/-- A 10-bit micro address within a page (R31, R98). -/
abbrev MicroAddr := BitVec 10

/-- A 5-bit register number (R20, R91). -/
abbrev RegNum := BitVec 5

/-- The words of one page of the microcode store: 1024, because a micro address has 10 bits (R50). -/
abbrev pageSize : Nat := 1024

/-- Entry `k` of a table with one entry per task. -/
def at16 {α : Type} (v : Vector α 16) (k : Task) : α := v[k.toNat]'k.isLt

/-- The table with entry `k` replaced. -/
def set16 {α : Type} (v : Vector α 16) (k : Task) (a : α) : Vector α 16 := v.set k.toNat a k.isLt

/-- Entry `i` of a file of 32 registers. -/
def at32 {α : Type} (v : Vector α 32) (i : RegNum) : α := v[i.toNat]'i.isLt

/-- The file with register `i` replaced. -/
def set32 {α : Type} (v : Vector α 32) (i : RegNum) (a : α) : Vector α 32 := v.set i.toNat a i.isLt

/-- A Boolean as a data word, 0 or 1. -/
def bitWord (b : Bool) : Word := if b then 1 else 0

end Sys2Proof
end

