-- ==== Sys2Proof/Config.lean ====
section
/-! DEFINITION. What is fixed from outside the core: the implementation parameters (R4 and the table of 00_scope.md), the
dispatch table with its installed operations (R244, R245), the environment's inputs of one cycle (R41), and the free values. -/

namespace Sys2Proof

/-- The two dispatch sub-steps of a microcycle (R244). -/
inductive Phase
  | early
  | late
deriving DecidableEq, Repr

/-- The three selector families that dispatch operations (R244). -/
inductive Family
  | bs
  | f1
  | f2
deriving DecidableEq, Repr

/-- The carry convention of subtraction (R139): the raw carry, or its complement. -/
inductive SubCarry
  | noBorrow
  | borrow
deriving DecidableEq, Repr

/-- A 16-bit value that an installed operation computes from what it may read (R245, last rows of the port table).
One-bit and short values are zero-extended. -/
inductive Val
  | lit (v : Word)
  | bus
  | alu
  | aluc0
  | shifter
  | l
  | t
  | m
  | laluc0
  | rsel
  | task
  | mpc
  /-- The R read port (R156) at the register whose number is the low five bits of the argument. -/
  | readR (i : Val)
  /-- The S read port (R158): bank number, then register number (its low five bits). -/
  | readS (b i : Val)
  /-- A register of the installed operation's own device, number `k`: an external value. -/
  | device (k : Nat)
  /-- What the `k`-th latest question of this cycle was answered (`Act.ask`); 0 where fewer were asked (notes/assumptions 11). -/
  | answer (k : Nat)
  | not (a : Val)
  | and (a b : Val)
  | or (a b : Val)
  | xor (a b : Val)
  | add (a b : Val)
  | shl (a : Val) (n : Nat)
  | shr (a : Val) (n : Nat)
  /-- `a` where `c` is not zero, else `b`. -/
  | cond (c a b : Val)
deriving DecidableEq, Repr

/-- A call to the collaborators or the scheduler that answers a value (R74, R186, R187, R245, R255). -/
inductive Query
  /-- `read_mem()`. -/
  | readMem
  /-- The mouse hook. -/
  | mouse
  /-- The disp hook. -/
  | disp
  /-- `check_mem_load_mar_stall(i)`. -/
  | marStall (i : Val)
  /-- `check_mem_write_stall()`. -/
  | writeStall
  /-- `check_mem_read_stall()`. -/
  | readStall
  /-- The scheduler's wakeup mask. -/
  | wakeups
  /-- The scheduler's requested-next-task. -/
  | requestedTask
deriving DecidableEq, Repr

/-- One act of an installed operation: a use of one port of R245, an external call, or something outside the ports. -/
inductive Act
  /-- `AndBus(v)`, early (R151). -/
  | andBus (v : Val)
  /-- `SetRsel(i)`, early F2 (R27). -/
  | setRsel (i : Val)
  /-- `OrNext(v)`, late (R252). -/
  | orNext (v : Val)
  /-- `WriteR(i, v)` (R157, with the workaround of R159). -/
  | writeR (i v : Val)
  /-- `WriteS(b, i, v)` (R158). -/
  | writeS (b i v : Val)
  /-- `SetSBank(k, b)` (R158). -/
  | setSBank (k b : Val)
  /-- `RequestURamWrite()`, late F1 of a ram-related task (R64). -/
  | requestURamWrite
  /-- `RequestURamRead()`, late F1 of a ram-related task (R66). -/
  | requestURamRead
  /-- `SetPage(p)`, late (R245). -/
  | setPage (p : Val)
  /-- `SetMagic()`, F2 of task 0 (R161). -/
  | setMagic
  /-- The collaborator's `load_mar(register_select, physical_address)` (R74). -/
  | loadMar (i v : Val)
  /-- The collaborator's `write_mem(value)` (R74). -/
  | writeMem (v : Val)
  /-- The collaborator's `read_mem()`, its answer ANDed onto the bus: early, as `AndBus` is (R74, R151, R185). -/
  | andReadMem
  /-- A call that answers a value, in any phase; later acts read the answer (`Val.answer`). -/
  | ask (q : Query)
  /-- A write to register `k` of the installed operation's own device: an external call. -/
  | device (k : Nat) (v : Val)
  /-- A scheduler call that sets a task's wakeup bit (R280). -/
  | wake (k : Val)
  /-- A scheduler call that clears a task's wakeup bit (R280). -/
  | unwake (k : Val)
  /-- The scheduler's arbitration, the shared default of the TASK word (R202). -/
  | arbitrate
  /-- The act `a`, where the value is not zero. -/
  | onlyIf (c : Val) (a : Act)
  /-- Anything else: an effect on the core outside the ports (R245). -/
  | outside
deriving DecidableEq, Repr

/-- A dispatch-table entry that an initializer installed: an operation, or an explicit empty entry (R244). -/
inductive Entry
  | op (acts : List Act)
  | absent
deriving DecidableEq, Repr

/-- The key of the dispatch table (R244). -/
structure Slot where
  phase  : Phase
  task   : Task
  family : Family
  code   : Nat
deriving DecidableEq, Repr

/-- The name that an installer gives a task's selector value (R285). R285 speaks of task-specific slots; that any value of a
family may be named is the model's (DESIGN CHOICE, notes/assumptions 25). -/
structure SlotName where
  task   : Task
  family : Family
  code   : Nat
  name   : String
deriving DecidableEq, Repr

/-- The implementation parameters (00_scope.md section 4). They are fixed while the core runs; State holds them so that a
statement about every state is a statement about every configuration. -/
structure Config where
  /-- `ROM_PAGES`. -/
  romPages : Nat
  /-- `RAM_PAGES`. -/
  ramPages : Nat
  /-- `PAGE_BITS`, the width of a page number. -/
  pageBits : Nat
  /-- `INV_MASK` (R51). -/
  invMask : UWord
  /-- `ROM_IMAGE`: stored words by fetch address (R38). -/
  romImage : List (Nat × UWord)
  /-- `RAM_IMAGE`: stored words by bank * 1024 + word (R38). -/
  ramImage : List (Nat × UWord)
  /-- `CONST_ROM`: the constants given, by index (R40); an index not listed holds a free value. -/
  constRom : List (Nat × Word)
  /-- `INIT_OFFSET(k)` (R32). -/
  initOffset : Vector Nat 16
  /-- `RESET_MODE`: bit k is 1 where task k starts in ROM (R32). -/
  resetMode : BitVec 16
  /-- `RAM_RELATED`: bit k is 1 where task k is ram-related (R33). -/
  ramRelated : BitVec 16
  /-- `S_BANKS` (R21). -/
  sBanks : Nat
  /-- `SUB_CARRY` (R139). -/
  subCarry : SubCarry
  /-- `CRAM_BANK_WRAP` (R61). -/
  cramBankWrap : Bool
  /-- `F1_CONST` (R152). -/
  f1Const : BitVec 4
  /-- `F2_CONST` (R152). -/
  f2Const : BitVec 4
  /-- `BS_CONST_THRESHOLD` (R152). -/
  bsConstThreshold : Nat
  /-- `LOADR_BUS` (R181). -/
  loadrBus : Word
  /-- `QUIRK_ENABLE` (R159). -/
  quirkEnable : Bool
  /-- `QUIRK_REG` (R159). -/
  quirkReg : RegNum
  /-- `BANKREG_BASE` (R72). -/
  bankregBase : Word
  /-- The entries the per-task initializers installed (R244); every other slot keeps its default entry. -/
  table : List (Slot × Entry)
  /-- The names that the initializers gave (R285, notes/assumptions 25). -/
  slotNames : List SlotName
  /-- Bit k is 1 where task k has a became-active callback (R35, R256). -/
  becameActive : BitVec 16
deriving DecidableEq, Repr

/-- The configuration is well formed (R4). -/
def Config.wf (c : Config) : Bool :=
  decide (1 ≤ c.romPages) && decide (1 ≤ c.ramPages) && decide (c.romPages + c.ramPages = 2 ^ c.pageBits) &&
    decide (1 ≤ c.sBanks) && decide (c.bsConstThreshold ≤ 8) && c.initOffset.toList.all (fun o => decide (o < 1024))

/-- What another agent does between two cycles. -/
inductive Event
  /-- A device sets a task's wakeup bit (R278). -/
  | wake (k : Task)
  /-- A device clears a task's wakeup bit (R280). -/
  | unwake (k : Task)
  /-- The memory collaborator's address space writes a word; only the bank-register window is the core's (R72). -/
  | busWrite (addr v : Word)
  /-- The memory collaborator's address space reads a word (R72). -/
  | busRead (addr : Word)
  /-- A soft reset (R302). -/
  | softReset
deriving DecidableEq, Repr

/-- What the environment gives the core in one iteration of the host loop (R41, R185 to R187, R241). -/
structure Inputs where
  /-- The external skip bit of ALU function 11 (R41). -/
  skip : Bool
  /-- `check_mem_load_mar_stall(i)` is bit i (R248). -/
  marStall : BitVec 32
  /-- `check_mem_write_stall()` (R248). -/
  writeStall : Bool
  /-- `check_mem_read_stall()` (R248). -/
  readStall : Bool
  /-- What `read_mem()` answers (R185). -/
  readMem : Word
  /-- What the mouse hook answers (R186). -/
  mouse : Word
  /-- What the disp hook answers (R187). -/
  disp : Word
  /-- What the registers of the installed operations' devices read as, by number; beyond the list, free values. -/
  device : List Word
  /-- The host's leave flag at the top of this iteration (R241). -/
  leave : Bool
  /-- What other agents do between this iteration and the next, in order. -/
  events : List Event
deriving DecidableEq, Repr, Inhabited

/-- FREE VALUE (notes/assumptions 6): the environment's inputs in iteration `n`, where State lists none for it. -/
opaque Config.freeInputs : Nat → Inputs

/-- FREE VALUE (notes/assumptions 7): the contents of CONST_ROM at an index that the configuration does not list. -/
opaque Config.freeConst : Nat → Word

/-- FREE VALUE (notes/assumptions 6): what device register `k` reads as in iteration `n`, where the inputs list none. -/
opaque Config.freeDevice : Nat → Nat → Word

end Sys2Proof
end

