-- ==== Sys2Proof/Syntax.lean ====
section
/-! DEFINITION. The microword and the instructions: one constructor per row of the opcode table.

The core has one instruction format, the 32-bit microword (R90), and a row of the opcode table fixes ONE of its fields: a
whole microword therefore belongs to one row of each family at once. A constructor is a whole microword seen from one of its
rows: the row fixes its own field, the operands are all the other fields. Which row names a word that the decoder reads is
the model's choice (notes/assumptions 3). Every row of a word has the same meaning. -/

namespace Sys2Proof

/-- The fields of a microword, most significant first (R90, R100). -/
structure Microword where
  /-- RSEL, bits 31:27 (R91). -/
  rsel  : RegNum
  /-- ALUF, bits 26:23 (R92). -/
  aluf  : BitVec 4
  /-- BS, bits 22:20 (R93). -/
  bs    : BitVec 3
  /-- F1, bits 19:16 (R94). -/
  f1    : BitVec 4
  /-- F2, bits 15:12 (R95). -/
  f2    : BitVec 4
  /-- LOADT, bit 11 (R96). -/
  loadt : Bool
  /-- LOADL, bit 10 (R97). -/
  loadl : Bool
  /-- NEXT, bits 9:0 (R98). -/
  next  : MicroAddr
deriving DecidableEq, Repr

/-- A row of the opcode table: one value of one field, or a load flag that is set. -/
inductive Row
  | alu (k : BitVec 4)
  | bs (k : BitVec 3)
  | f1 (k : BitVec 4)
  | f2 (k : BitVec 4)
  | loadT
  | loadL
deriving DecidableEq, Repr

/-- The instructions, one constructor per row of the opcode table. -/
inductive Instr
  /-- ALU.BUS (R122). -/
  | aluBus (rsel : RegNum) (bs : BitVec 3) (f1 : BitVec 4) (f2 : BitVec 4) (loadt : Bool) (loadl : Bool) (next : MicroAddr)
  /-- ALU.T (R123). -/
  | aluT (rsel : RegNum) (bs : BitVec 3) (f1 : BitVec 4) (f2 : BitVec 4) (loadt : Bool) (loadl : Bool) (next : MicroAddr)
  /-- ALU.BUS_OR_T (R124). -/
  | aluBusOrT (rsel : RegNum) (bs : BitVec 3) (f1 : BitVec 4) (f2 : BitVec 4) (loadt : Bool) (loadl : Bool) (next : MicroAddr)
  /-- ALU.BUS_AND_T (R125). -/
  | aluBusAndT (rsel : RegNum) (bs : BitVec 3) (f1 : BitVec 4) (f2 : BitVec 4) (loadt : Bool) (loadl : Bool) (next : MicroAddr)
  /-- ALU.BUS_XOR_T (R126). -/
  | aluBusXorT (rsel : RegNum) (bs : BitVec 3) (f1 : BitVec 4) (f2 : BitVec 4) (loadt : Bool) (loadl : Bool) (next : MicroAddr)
  /-- ALU.BUS_PLUS_1 (R127). -/
  | aluBusPlus1 (rsel : RegNum) (bs : BitVec 3) (f1 : BitVec 4) (f2 : BitVec 4) (loadt : Bool) (loadl : Bool) (next : MicroAddr)
  /-- ALU.BUS_MINUS_1 (R128). -/
  | aluBusMinus1 (rsel : RegNum) (bs : BitVec 3) (f1 : BitVec 4) (f2 : BitVec 4) (loadt : Bool) (loadl : Bool) (next : MicroAddr)
  /-- ALU.BUS_PLUS_T (R129). -/
  | aluBusPlusT (rsel : RegNum) (bs : BitVec 3) (f1 : BitVec 4) (f2 : BitVec 4) (loadt : Bool) (loadl : Bool) (next : MicroAddr)
  /-- ALU.BUS_MINUS_T (R130). -/
  | aluBusMinusT (rsel : RegNum) (bs : BitVec 3) (f1 : BitVec 4) (f2 : BitVec 4) (loadt : Bool) (loadl : Bool) (next : MicroAddr)
  /-- ALU.BUS_MINUS_T_MINUS_1 (R131). -/
  | aluBusMinusTMinus1 (rsel : RegNum) (bs : BitVec 3) (f1 : BitVec 4) (f2 : BitVec 4) (loadt : Bool) (loadl : Bool) (next : MicroAddr)
  /-- ALU.BUS_PLUS_T_PLUS_1 (R132). -/
  | aluBusPlusTPlus1 (rsel : RegNum) (bs : BitVec 3) (f1 : BitVec 4) (f2 : BitVec 4) (loadt : Bool) (loadl : Bool) (next : MicroAddr)
  /-- ALU.BUS_PLUS_SKIP (R133). -/
  | aluBusPlusSkip (rsel : RegNum) (bs : BitVec 3) (f1 : BitVec 4) (f2 : BitVec 4) (loadt : Bool) (loadl : Bool) (next : MicroAddr)
  /-- ALU.BUS_DOT_T (R134). -/
  | aluBusDotT (rsel : RegNum) (bs : BitVec 3) (f1 : BitVec 4) (f2 : BitVec 4) (loadt : Bool) (loadl : Bool) (next : MicroAddr)
  /-- ALU.BUS_AND_NOT_T (R135). -/
  | aluBusAndNotT (rsel : RegNum) (bs : BitVec 3) (f1 : BitVec 4) (f2 : BitVec 4) (loadt : Bool) (loadl : Bool) (next : MicroAddr)
  /-- ALU.UNDEF14 (R136). -/
  | aluUndef14 (rsel : RegNum) (bs : BitVec 3) (f1 : BitVec 4) (f2 : BitVec 4) (loadt : Bool) (loadl : Bool) (next : MicroAddr)
  /-- ALU.UNDEF15 (R137). -/
  | aluUndef15 (rsel : RegNum) (bs : BitVec 3) (f1 : BitVec 4) (f2 : BitVec 4) (loadt : Bool) (loadl : Bool) (next : MicroAddr)
  /-- BS.READR (R180). -/
  | bsReadr (rsel : RegNum) (aluf : BitVec 4) (f1 : BitVec 4) (f2 : BitVec 4) (loadt : Bool) (loadl : Bool) (next : MicroAddr)
  /-- BS.LOADR (R181). -/
  | bsLoadr (rsel : RegNum) (aluf : BitVec 4) (f1 : BitVec 4) (f2 : BitVec 4) (loadt : Bool) (loadl : Bool) (next : MicroAddr)
  /-- BS.NONE (R182). -/
  | bsNone (rsel : RegNum) (aluf : BitVec 4) (f1 : BitVec 4) (f2 : BitVec 4) (loadt : Bool) (loadl : Bool) (next : MicroAddr)
  /-- BS.TASK_SLOT_3 (R183). -/
  | bsTaskSlot3 (rsel : RegNum) (aluf : BitVec 4) (f1 : BitVec 4) (f2 : BitVec 4) (loadt : Bool) (loadl : Bool) (next : MicroAddr)
  /-- BS.TASK_SLOT_4 (R184). -/
  | bsTaskSlot4 (rsel : RegNum) (aluf : BitVec 4) (f1 : BitVec 4) (f2 : BitVec 4) (loadt : Bool) (loadl : Bool) (next : MicroAddr)
  /-- BS.READMD (R185). -/
  | bsReadmd (rsel : RegNum) (aluf : BitVec 4) (f1 : BitVec 4) (f2 : BitVec 4) (loadt : Bool) (loadl : Bool) (next : MicroAddr)
  /-- BS.MOUSE (R186). -/
  | bsMouse (rsel : RegNum) (aluf : BitVec 4) (f1 : BitVec 4) (f2 : BitVec 4) (loadt : Bool) (loadl : Bool) (next : MicroAddr)
  /-- BS.DISP (R187). -/
  | bsDisp (rsel : RegNum) (aluf : BitVec 4) (f1 : BitVec 4) (f2 : BitVec 4) (loadt : Bool) (loadl : Bool) (next : MicroAddr)
  /-- F1.NONE (R200). -/
  | f1None (rsel : RegNum) (aluf : BitVec 4) (bs : BitVec 3) (f2 : BitVec 4) (loadt : Bool) (loadl : Bool) (next : MicroAddr)
  /-- F1.LOADMAR (R201). -/
  | f1Loadmar (rsel : RegNum) (aluf : BitVec 4) (bs : BitVec 3) (f2 : BitVec 4) (loadt : Bool) (loadl : Bool) (next : MicroAddr)
  /-- F1.TASK (R202). -/
  | f1Task (rsel : RegNum) (aluf : BitVec 4) (bs : BitVec 3) (f2 : BitVec 4) (loadt : Bool) (loadl : Bool) (next : MicroAddr)
  /-- F1.BLOCK (R203). -/
  | f1Block (rsel : RegNum) (aluf : BitVec 4) (bs : BitVec 3) (f2 : BitVec 4) (loadt : Bool) (loadl : Bool) (next : MicroAddr)
  /-- F1.LLSH1 (R204). -/
  | f1Llsh1 (rsel : RegNum) (aluf : BitVec 4) (bs : BitVec 3) (f2 : BitVec 4) (loadt : Bool) (loadl : Bool) (next : MicroAddr)
  /-- F1.LRSH1 (R205). -/
  | f1Lrsh1 (rsel : RegNum) (aluf : BitVec 4) (bs : BitVec 3) (f2 : BitVec 4) (loadt : Bool) (loadl : Bool) (next : MicroAddr)
  /-- F1.LLCY8 (R206). -/
  | f1Llcy8 (rsel : RegNum) (aluf : BitVec 4) (bs : BitVec 3) (f2 : BitVec 4) (loadt : Bool) (loadl : Bool) (next : MicroAddr)
  /-- F1.CONST (R207). -/
  | f1Const (rsel : RegNum) (aluf : BitVec 4) (bs : BitVec 3) (f2 : BitVec 4) (loadt : Bool) (loadl : Bool) (next : MicroAddr)
  /-- F1.TASK_SLOT_0o10 (R208). -/
  | f1TaskSlot0o10 (rsel : RegNum) (aluf : BitVec 4) (bs : BitVec 3) (f2 : BitVec 4) (loadt : Bool) (loadl : Bool) (next : MicroAddr)
  /-- F1.TASK_SLOT_0o11 (R209). -/
  | f1TaskSlot0o11 (rsel : RegNum) (aluf : BitVec 4) (bs : BitVec 3) (f2 : BitVec 4) (loadt : Bool) (loadl : Bool) (next : MicroAddr)
  /-- F1.TASK_SLOT_0o12 (R210). -/
  | f1TaskSlot0o12 (rsel : RegNum) (aluf : BitVec 4) (bs : BitVec 3) (f2 : BitVec 4) (loadt : Bool) (loadl : Bool) (next : MicroAddr)
  /-- F1.TASK_SLOT_0o13 (R211). -/
  | f1TaskSlot0o13 (rsel : RegNum) (aluf : BitVec 4) (bs : BitVec 3) (f2 : BitVec 4) (loadt : Bool) (loadl : Bool) (next : MicroAddr)
  /-- F1.TASK_SLOT_0o14 (R212). -/
  | f1TaskSlot0o14 (rsel : RegNum) (aluf : BitVec 4) (bs : BitVec 3) (f2 : BitVec 4) (loadt : Bool) (loadl : Bool) (next : MicroAddr)
  /-- F1.TASK_SLOT_0o15 (R213). -/
  | f1TaskSlot0o15 (rsel : RegNum) (aluf : BitVec 4) (bs : BitVec 3) (f2 : BitVec 4) (loadt : Bool) (loadl : Bool) (next : MicroAddr)
  /-- F1.TASK_SLOT_0o16 (R214). -/
  | f1TaskSlot0o16 (rsel : RegNum) (aluf : BitVec 4) (bs : BitVec 3) (f2 : BitVec 4) (loadt : Bool) (loadl : Bool) (next : MicroAddr)
  /-- F1.TASK_SLOT_0o17 (R215). -/
  | f1TaskSlot0o17 (rsel : RegNum) (aluf : BitVec 4) (bs : BitVec 3) (f2 : BitVec 4) (loadt : Bool) (loadl : Bool) (next : MicroAddr)
  /-- F2.NONE (R220). -/
  | f2None (rsel : RegNum) (aluf : BitVec 4) (bs : BitVec 3) (f1 : BitVec 4) (loadt : Bool) (loadl : Bool) (next : MicroAddr)
  /-- F2.BUSEQ0 (R221). -/
  | f2Buseq0 (rsel : RegNum) (aluf : BitVec 4) (bs : BitVec 3) (f1 : BitVec 4) (loadt : Bool) (loadl : Bool) (next : MicroAddr)
  /-- F2.SHLT0 (R222). -/
  | f2Shlt0 (rsel : RegNum) (aluf : BitVec 4) (bs : BitVec 3) (f1 : BitVec 4) (loadt : Bool) (loadl : Bool) (next : MicroAddr)
  /-- F2.SHEQ0 (R223). -/
  | f2Sheq0 (rsel : RegNum) (aluf : BitVec 4) (bs : BitVec 3) (f1 : BitVec 4) (loadt : Bool) (loadl : Bool) (next : MicroAddr)
  /-- F2.BUS (R224). -/
  | f2Bus (rsel : RegNum) (aluf : BitVec 4) (bs : BitVec 3) (f1 : BitVec 4) (loadt : Bool) (loadl : Bool) (next : MicroAddr)
  /-- F2.ALUCY (R225). -/
  | f2Alucy (rsel : RegNum) (aluf : BitVec 4) (bs : BitVec 3) (f1 : BitVec 4) (loadt : Bool) (loadl : Bool) (next : MicroAddr)
  /-- F2.LOADMD (R226). -/
  | f2Loadmd (rsel : RegNum) (aluf : BitVec 4) (bs : BitVec 3) (f1 : BitVec 4) (loadt : Bool) (loadl : Bool) (next : MicroAddr)
  /-- F2.CONST (R227). -/
  | f2Const (rsel : RegNum) (aluf : BitVec 4) (bs : BitVec 3) (f1 : BitVec 4) (loadt : Bool) (loadl : Bool) (next : MicroAddr)
  /-- F2.TASK_SLOT_0o10 (R228). -/
  | f2TaskSlot0o10 (rsel : RegNum) (aluf : BitVec 4) (bs : BitVec 3) (f1 : BitVec 4) (loadt : Bool) (loadl : Bool) (next : MicroAddr)
  /-- F2.TASK_SLOT_0o11 (R229). -/
  | f2TaskSlot0o11 (rsel : RegNum) (aluf : BitVec 4) (bs : BitVec 3) (f1 : BitVec 4) (loadt : Bool) (loadl : Bool) (next : MicroAddr)
  /-- F2.TASK_SLOT_0o12 (R230). -/
  | f2TaskSlot0o12 (rsel : RegNum) (aluf : BitVec 4) (bs : BitVec 3) (f1 : BitVec 4) (loadt : Bool) (loadl : Bool) (next : MicroAddr)
  /-- F2.TASK_SLOT_0o13 (R231). -/
  | f2TaskSlot0o13 (rsel : RegNum) (aluf : BitVec 4) (bs : BitVec 3) (f1 : BitVec 4) (loadt : Bool) (loadl : Bool) (next : MicroAddr)
  /-- F2.TASK_SLOT_0o14 (R232). -/
  | f2TaskSlot0o14 (rsel : RegNum) (aluf : BitVec 4) (bs : BitVec 3) (f1 : BitVec 4) (loadt : Bool) (loadl : Bool) (next : MicroAddr)
  /-- F2.TASK_SLOT_0o15 (R233). -/
  | f2TaskSlot0o15 (rsel : RegNum) (aluf : BitVec 4) (bs : BitVec 3) (f1 : BitVec 4) (loadt : Bool) (loadl : Bool) (next : MicroAddr)
  /-- F2.TASK_SLOT_0o16 (R234). -/
  | f2TaskSlot0o16 (rsel : RegNum) (aluf : BitVec 4) (bs : BitVec 3) (f1 : BitVec 4) (loadt : Bool) (loadl : Bool) (next : MicroAddr)
  /-- F2.TASK_SLOT_0o17 (R235). -/
  | f2TaskSlot0o17 (rsel : RegNum) (aluf : BitVec 4) (bs : BitVec 3) (f1 : BitVec 4) (loadt : Bool) (loadl : Bool) (next : MicroAddr)
  /-- LOADT (R167). -/
  | loadT (rsel : RegNum) (aluf : BitVec 4) (bs : BitVec 3) (f1 : BitVec 4) (f2 : BitVec 4) (loadl : Bool) (next : MicroAddr)
  /-- LOADL (R164). -/
  | loadL (rsel : RegNum) (aluf : BitVec 4) (bs : BitVec 3) (f1 : BitVec 4) (f2 : BitVec 4) (loadt : Bool) (next : MicroAddr)
deriving DecidableEq, Repr

end Sys2Proof
end

