-- ==== Sys2Proof/WellFormed.lean ====
section
/-! DEFINITION. Which instructions are well formed: those whose row is the one that names their word.

Every 32-bit value is a legal microword (R105) and no operand value is illegal, so the one thing to check of an instruction
is the model's own convention (notes/assumptions 3): a microword stands in several rows of the opcode table, and exactly one
of them names it. -/

namespace Sys2Proof

/-- The row that names a word with these selectors and flags (the model's choice, DESIGN CHOICE, notes/assumptions 3).
A selector that stands alone among fields of all ones names the word; else the first field that is not zero names it, in the
order F1, F2, BS, LOADT, LOADL, ALUF; a word with none is ALU.BUS. -/
def namedBy (aluf : BitVec 4) (bs : BitVec 3) (f1 f2 : BitVec 4) (loadt loadl : Bool) : Row :=
  if loadt && loadl && bs == 7 && f1 == 15 && f2 == 15 then .alu aluf
  else if loadt && loadl && aluf == 15 && f1 == 15 && f2 == 15 then .bs bs
  else if loadt && loadl && aluf == 15 && bs == 7 && f2 == 15 then .f1 f1
  else if loadt && loadl && aluf == 15 && bs == 7 && f1 == 15 then .f2 f2
  else if f1 != 0 then .f1 f1
  else if f2 != 0 then .f2 f2
  else if bs != 0 then .bs bs
  else if loadt then .loadT
  else if loadl then .loadL
  else .alu aluf

/-- An instruction is well formed when its own row names its word. -/
def WellFormed : Instr → Bool
  | .aluBus _ bs f1 f2 loadt loadl _ => namedBy 0 bs f1 f2 loadt loadl == .alu 0
  | .aluT _ bs f1 f2 loadt loadl _ => namedBy 1 bs f1 f2 loadt loadl == .alu 1
  | .aluBusOrT _ bs f1 f2 loadt loadl _ => namedBy 2 bs f1 f2 loadt loadl == .alu 2
  | .aluBusAndT _ bs f1 f2 loadt loadl _ => namedBy 3 bs f1 f2 loadt loadl == .alu 3
  | .aluBusXorT _ bs f1 f2 loadt loadl _ => namedBy 4 bs f1 f2 loadt loadl == .alu 4
  | .aluBusPlus1 _ bs f1 f2 loadt loadl _ => namedBy 5 bs f1 f2 loadt loadl == .alu 5
  | .aluBusMinus1 _ bs f1 f2 loadt loadl _ => namedBy 6 bs f1 f2 loadt loadl == .alu 6
  | .aluBusPlusT _ bs f1 f2 loadt loadl _ => namedBy 7 bs f1 f2 loadt loadl == .alu 7
  | .aluBusMinusT _ bs f1 f2 loadt loadl _ => namedBy 8 bs f1 f2 loadt loadl == .alu 8
  | .aluBusMinusTMinus1 _ bs f1 f2 loadt loadl _ => namedBy 9 bs f1 f2 loadt loadl == .alu 9
  | .aluBusPlusTPlus1 _ bs f1 f2 loadt loadl _ => namedBy 10 bs f1 f2 loadt loadl == .alu 10
  | .aluBusPlusSkip _ bs f1 f2 loadt loadl _ => namedBy 11 bs f1 f2 loadt loadl == .alu 11
  | .aluBusDotT _ bs f1 f2 loadt loadl _ => namedBy 12 bs f1 f2 loadt loadl == .alu 12
  | .aluBusAndNotT _ bs f1 f2 loadt loadl _ => namedBy 13 bs f1 f2 loadt loadl == .alu 13
  | .aluUndef14 _ bs f1 f2 loadt loadl _ => namedBy 14 bs f1 f2 loadt loadl == .alu 14
  | .aluUndef15 _ bs f1 f2 loadt loadl _ => namedBy 15 bs f1 f2 loadt loadl == .alu 15
  | .bsReadr _ aluf f1 f2 loadt loadl _ => namedBy aluf 0 f1 f2 loadt loadl == .bs 0
  | .bsLoadr _ aluf f1 f2 loadt loadl _ => namedBy aluf 1 f1 f2 loadt loadl == .bs 1
  | .bsNone _ aluf f1 f2 loadt loadl _ => namedBy aluf 2 f1 f2 loadt loadl == .bs 2
  | .bsTaskSlot3 _ aluf f1 f2 loadt loadl _ => namedBy aluf 3 f1 f2 loadt loadl == .bs 3
  | .bsTaskSlot4 _ aluf f1 f2 loadt loadl _ => namedBy aluf 4 f1 f2 loadt loadl == .bs 4
  | .bsReadmd _ aluf f1 f2 loadt loadl _ => namedBy aluf 5 f1 f2 loadt loadl == .bs 5
  | .bsMouse _ aluf f1 f2 loadt loadl _ => namedBy aluf 6 f1 f2 loadt loadl == .bs 6
  | .bsDisp _ aluf f1 f2 loadt loadl _ => namedBy aluf 7 f1 f2 loadt loadl == .bs 7
  | .f1None _ aluf bs f2 loadt loadl _ => namedBy aluf bs 0 f2 loadt loadl == .f1 0
  | .f1Loadmar _ aluf bs f2 loadt loadl _ => namedBy aluf bs 1 f2 loadt loadl == .f1 1
  | .f1Task _ aluf bs f2 loadt loadl _ => namedBy aluf bs 2 f2 loadt loadl == .f1 2
  | .f1Block _ aluf bs f2 loadt loadl _ => namedBy aluf bs 3 f2 loadt loadl == .f1 3
  | .f1Llsh1 _ aluf bs f2 loadt loadl _ => namedBy aluf bs 4 f2 loadt loadl == .f1 4
  | .f1Lrsh1 _ aluf bs f2 loadt loadl _ => namedBy aluf bs 5 f2 loadt loadl == .f1 5
  | .f1Llcy8 _ aluf bs f2 loadt loadl _ => namedBy aluf bs 6 f2 loadt loadl == .f1 6
  | .f1Const _ aluf bs f2 loadt loadl _ => namedBy aluf bs 7 f2 loadt loadl == .f1 7
  | .f1TaskSlot0o10 _ aluf bs f2 loadt loadl _ => namedBy aluf bs 8 f2 loadt loadl == .f1 8
  | .f1TaskSlot0o11 _ aluf bs f2 loadt loadl _ => namedBy aluf bs 9 f2 loadt loadl == .f1 9
  | .f1TaskSlot0o12 _ aluf bs f2 loadt loadl _ => namedBy aluf bs 10 f2 loadt loadl == .f1 10
  | .f1TaskSlot0o13 _ aluf bs f2 loadt loadl _ => namedBy aluf bs 11 f2 loadt loadl == .f1 11
  | .f1TaskSlot0o14 _ aluf bs f2 loadt loadl _ => namedBy aluf bs 12 f2 loadt loadl == .f1 12
  | .f1TaskSlot0o15 _ aluf bs f2 loadt loadl _ => namedBy aluf bs 13 f2 loadt loadl == .f1 13
  | .f1TaskSlot0o16 _ aluf bs f2 loadt loadl _ => namedBy aluf bs 14 f2 loadt loadl == .f1 14
  | .f1TaskSlot0o17 _ aluf bs f2 loadt loadl _ => namedBy aluf bs 15 f2 loadt loadl == .f1 15
  | .f2None _ aluf bs f1 loadt loadl _ => namedBy aluf bs f1 0 loadt loadl == .f2 0
  | .f2Buseq0 _ aluf bs f1 loadt loadl _ => namedBy aluf bs f1 1 loadt loadl == .f2 1
  | .f2Shlt0 _ aluf bs f1 loadt loadl _ => namedBy aluf bs f1 2 loadt loadl == .f2 2
  | .f2Sheq0 _ aluf bs f1 loadt loadl _ => namedBy aluf bs f1 3 loadt loadl == .f2 3
  | .f2Bus _ aluf bs f1 loadt loadl _ => namedBy aluf bs f1 4 loadt loadl == .f2 4
  | .f2Alucy _ aluf bs f1 loadt loadl _ => namedBy aluf bs f1 5 loadt loadl == .f2 5
  | .f2Loadmd _ aluf bs f1 loadt loadl _ => namedBy aluf bs f1 6 loadt loadl == .f2 6
  | .f2Const _ aluf bs f1 loadt loadl _ => namedBy aluf bs f1 7 loadt loadl == .f2 7
  | .f2TaskSlot0o10 _ aluf bs f1 loadt loadl _ => namedBy aluf bs f1 8 loadt loadl == .f2 8
  | .f2TaskSlot0o11 _ aluf bs f1 loadt loadl _ => namedBy aluf bs f1 9 loadt loadl == .f2 9
  | .f2TaskSlot0o12 _ aluf bs f1 loadt loadl _ => namedBy aluf bs f1 10 loadt loadl == .f2 10
  | .f2TaskSlot0o13 _ aluf bs f1 loadt loadl _ => namedBy aluf bs f1 11 loadt loadl == .f2 11
  | .f2TaskSlot0o14 _ aluf bs f1 loadt loadl _ => namedBy aluf bs f1 12 loadt loadl == .f2 12
  | .f2TaskSlot0o15 _ aluf bs f1 loadt loadl _ => namedBy aluf bs f1 13 loadt loadl == .f2 13
  | .f2TaskSlot0o16 _ aluf bs f1 loadt loadl _ => namedBy aluf bs f1 14 loadt loadl == .f2 14
  | .f2TaskSlot0o17 _ aluf bs f1 loadt loadl _ => namedBy aluf bs f1 15 loadt loadl == .f2 15
  | .loadT _ aluf bs f1 f2 loadl _ => namedBy aluf bs f1 f2 true loadl == .loadT
  | .loadL _ aluf bs f1 f2 loadt _ => namedBy aluf bs f1 f2 loadt true == .loadL

end Sys2Proof
end

