-- ==== Sys2Proof/Decode.lean ====
section
/-! DEFINITION. The decoder, total on every 32-bit word (R100, R105), and after it the encoder. -/

namespace Sys2Proof

/-- The fields of a 32-bit word (R90, R100). -/
def wordFields (w : UWord) : Microword :=
  { rsel  := w.extractLsb' 27 5
    aluf  := w.extractLsb' 23 4
    bs    := w.extractLsb' 20 3
    f1    := w.extractLsb' 16 4
    f2    := w.extractLsb' 12 4
    loadt := w.getLsbD 11
    loadl := w.getLsbD 10
    next  := w.extractLsb' 0 10 }

/-- The word seen from its ALU function row (R122 to R137). -/
def aluInstr (d : Microword) : Instr :=
  match d.aluf.toNat with
  | 0 => .aluBus d.rsel d.bs d.f1 d.f2 d.loadt d.loadl d.next
  | 1 => .aluT d.rsel d.bs d.f1 d.f2 d.loadt d.loadl d.next
  | 2 => .aluBusOrT d.rsel d.bs d.f1 d.f2 d.loadt d.loadl d.next
  | 3 => .aluBusAndT d.rsel d.bs d.f1 d.f2 d.loadt d.loadl d.next
  | 4 => .aluBusXorT d.rsel d.bs d.f1 d.f2 d.loadt d.loadl d.next
  | 5 => .aluBusPlus1 d.rsel d.bs d.f1 d.f2 d.loadt d.loadl d.next
  | 6 => .aluBusMinus1 d.rsel d.bs d.f1 d.f2 d.loadt d.loadl d.next
  | 7 => .aluBusPlusT d.rsel d.bs d.f1 d.f2 d.loadt d.loadl d.next
  | 8 => .aluBusMinusT d.rsel d.bs d.f1 d.f2 d.loadt d.loadl d.next
  | 9 => .aluBusMinusTMinus1 d.rsel d.bs d.f1 d.f2 d.loadt d.loadl d.next
  | 10 => .aluBusPlusTPlus1 d.rsel d.bs d.f1 d.f2 d.loadt d.loadl d.next
  | 11 => .aluBusPlusSkip d.rsel d.bs d.f1 d.f2 d.loadt d.loadl d.next
  | 12 => .aluBusDotT d.rsel d.bs d.f1 d.f2 d.loadt d.loadl d.next
  | 13 => .aluBusAndNotT d.rsel d.bs d.f1 d.f2 d.loadt d.loadl d.next
  | 14 => .aluUndef14 d.rsel d.bs d.f1 d.f2 d.loadt d.loadl d.next
  | _ => .aluUndef15 d.rsel d.bs d.f1 d.f2 d.loadt d.loadl d.next

/-- The word seen from its bus-source row (R180 to R187). -/
def bsInstr (d : Microword) : Instr :=
  match d.bs.toNat with
  | 0 => .bsReadr d.rsel d.aluf d.f1 d.f2 d.loadt d.loadl d.next
  | 1 => .bsLoadr d.rsel d.aluf d.f1 d.f2 d.loadt d.loadl d.next
  | 2 => .bsNone d.rsel d.aluf d.f1 d.f2 d.loadt d.loadl d.next
  | 3 => .bsTaskSlot3 d.rsel d.aluf d.f1 d.f2 d.loadt d.loadl d.next
  | 4 => .bsTaskSlot4 d.rsel d.aluf d.f1 d.f2 d.loadt d.loadl d.next
  | 5 => .bsReadmd d.rsel d.aluf d.f1 d.f2 d.loadt d.loadl d.next
  | 6 => .bsMouse d.rsel d.aluf d.f1 d.f2 d.loadt d.loadl d.next
  | _ => .bsDisp d.rsel d.aluf d.f1 d.f2 d.loadt d.loadl d.next

/-- The word seen from its F1 row (R200 to R215). -/
def f1Instr (d : Microword) : Instr :=
  match d.f1.toNat with
  | 0 => .f1None d.rsel d.aluf d.bs d.f2 d.loadt d.loadl d.next
  | 1 => .f1Loadmar d.rsel d.aluf d.bs d.f2 d.loadt d.loadl d.next
  | 2 => .f1Task d.rsel d.aluf d.bs d.f2 d.loadt d.loadl d.next
  | 3 => .f1Block d.rsel d.aluf d.bs d.f2 d.loadt d.loadl d.next
  | 4 => .f1Llsh1 d.rsel d.aluf d.bs d.f2 d.loadt d.loadl d.next
  | 5 => .f1Lrsh1 d.rsel d.aluf d.bs d.f2 d.loadt d.loadl d.next
  | 6 => .f1Llcy8 d.rsel d.aluf d.bs d.f2 d.loadt d.loadl d.next
  | 7 => .f1Const d.rsel d.aluf d.bs d.f2 d.loadt d.loadl d.next
  | 8 => .f1TaskSlot0o10 d.rsel d.aluf d.bs d.f2 d.loadt d.loadl d.next
  | 9 => .f1TaskSlot0o11 d.rsel d.aluf d.bs d.f2 d.loadt d.loadl d.next
  | 10 => .f1TaskSlot0o12 d.rsel d.aluf d.bs d.f2 d.loadt d.loadl d.next
  | 11 => .f1TaskSlot0o13 d.rsel d.aluf d.bs d.f2 d.loadt d.loadl d.next
  | 12 => .f1TaskSlot0o14 d.rsel d.aluf d.bs d.f2 d.loadt d.loadl d.next
  | 13 => .f1TaskSlot0o15 d.rsel d.aluf d.bs d.f2 d.loadt d.loadl d.next
  | 14 => .f1TaskSlot0o16 d.rsel d.aluf d.bs d.f2 d.loadt d.loadl d.next
  | _ => .f1TaskSlot0o17 d.rsel d.aluf d.bs d.f2 d.loadt d.loadl d.next

/-- The word seen from its F2 row (R220 to R235). -/
def f2Instr (d : Microword) : Instr :=
  match d.f2.toNat with
  | 0 => .f2None d.rsel d.aluf d.bs d.f1 d.loadt d.loadl d.next
  | 1 => .f2Buseq0 d.rsel d.aluf d.bs d.f1 d.loadt d.loadl d.next
  | 2 => .f2Shlt0 d.rsel d.aluf d.bs d.f1 d.loadt d.loadl d.next
  | 3 => .f2Sheq0 d.rsel d.aluf d.bs d.f1 d.loadt d.loadl d.next
  | 4 => .f2Bus d.rsel d.aluf d.bs d.f1 d.loadt d.loadl d.next
  | 5 => .f2Alucy d.rsel d.aluf d.bs d.f1 d.loadt d.loadl d.next
  | 6 => .f2Loadmd d.rsel d.aluf d.bs d.f1 d.loadt d.loadl d.next
  | 7 => .f2Const d.rsel d.aluf d.bs d.f1 d.loadt d.loadl d.next
  | 8 => .f2TaskSlot0o10 d.rsel d.aluf d.bs d.f1 d.loadt d.loadl d.next
  | 9 => .f2TaskSlot0o11 d.rsel d.aluf d.bs d.f1 d.loadt d.loadl d.next
  | 10 => .f2TaskSlot0o12 d.rsel d.aluf d.bs d.f1 d.loadt d.loadl d.next
  | 11 => .f2TaskSlot0o13 d.rsel d.aluf d.bs d.f1 d.loadt d.loadl d.next
  | 12 => .f2TaskSlot0o14 d.rsel d.aluf d.bs d.f1 d.loadt d.loadl d.next
  | 13 => .f2TaskSlot0o15 d.rsel d.aluf d.bs d.f1 d.loadt d.loadl d.next
  | 14 => .f2TaskSlot0o16 d.rsel d.aluf d.bs d.f1 d.loadt d.loadl d.next
  | _ => .f2TaskSlot0o17 d.rsel d.aluf d.bs d.f1 d.loadt d.loadl d.next

/-- The instruction that names a word with these fields. -/
def nameWord (d : Microword) : Instr :=
  match namedBy d.aluf d.bs d.f1 d.f2 d.loadt d.loadl with
  | .alu _ => aluInstr d
  | .bs _ => bsInstr d
  | .f1 _ => f1Instr d
  | .f2 _ => f2Instr d
  | .loadT => .loadT d.rsel d.aluf d.bs d.f1 d.f2 d.loadl d.next
  | .loadL => .loadL d.rsel d.aluf d.bs d.f1 d.f2 d.loadt d.next

/-- The instruction a microword decodes to: a total function of the word (R100). -/
def decode (w : UWord) : Instr := nameWord (wordFields w)

/-- Why bits are not an instruction: the decoder rejects no word, only bits that are not one word (R107). -/
inductive DecodeError
  /-- More bits than the 32 of a microword. Safe: nothing runs. -/
  | notOneWord (nbits : Nat)
deriving DecidableEq, Repr

/-- Decode `nbits` bits as the machine stores them, the bits above `nbits` zero. -/
def decodeBits (nbits w : Nat) : Except DecodeError Instr :=
  if nbits ≤ 32 then .ok (decode (BitVec.ofNat 32 (w % 2 ^ nbits))) else .error (.notOneWord nbits)

/-- The instruction the decoder reads from the bits of an opcode-table row. -/
def decodeTableWord (nbits w : Nat) : Option Instr :=
  match decodeBits nbits w with
  | .ok i => some i
  | .error _ => none

/-- The fields of the microword that an instruction stands for: its row's own field and its operands. -/
def instrFields : Instr → Microword
  | .aluBus rsel bs f1 f2 loadt loadl next => ⟨rsel, 0, bs, f1, f2, loadt, loadl, next⟩
  | .aluT rsel bs f1 f2 loadt loadl next => ⟨rsel, 1, bs, f1, f2, loadt, loadl, next⟩
  | .aluBusOrT rsel bs f1 f2 loadt loadl next => ⟨rsel, 2, bs, f1, f2, loadt, loadl, next⟩
  | .aluBusAndT rsel bs f1 f2 loadt loadl next => ⟨rsel, 3, bs, f1, f2, loadt, loadl, next⟩
  | .aluBusXorT rsel bs f1 f2 loadt loadl next => ⟨rsel, 4, bs, f1, f2, loadt, loadl, next⟩
  | .aluBusPlus1 rsel bs f1 f2 loadt loadl next => ⟨rsel, 5, bs, f1, f2, loadt, loadl, next⟩
  | .aluBusMinus1 rsel bs f1 f2 loadt loadl next => ⟨rsel, 6, bs, f1, f2, loadt, loadl, next⟩
  | .aluBusPlusT rsel bs f1 f2 loadt loadl next => ⟨rsel, 7, bs, f1, f2, loadt, loadl, next⟩
  | .aluBusMinusT rsel bs f1 f2 loadt loadl next => ⟨rsel, 8, bs, f1, f2, loadt, loadl, next⟩
  | .aluBusMinusTMinus1 rsel bs f1 f2 loadt loadl next => ⟨rsel, 9, bs, f1, f2, loadt, loadl, next⟩
  | .aluBusPlusTPlus1 rsel bs f1 f2 loadt loadl next => ⟨rsel, 10, bs, f1, f2, loadt, loadl, next⟩
  | .aluBusPlusSkip rsel bs f1 f2 loadt loadl next => ⟨rsel, 11, bs, f1, f2, loadt, loadl, next⟩
  | .aluBusDotT rsel bs f1 f2 loadt loadl next => ⟨rsel, 12, bs, f1, f2, loadt, loadl, next⟩
  | .aluBusAndNotT rsel bs f1 f2 loadt loadl next => ⟨rsel, 13, bs, f1, f2, loadt, loadl, next⟩
  | .aluUndef14 rsel bs f1 f2 loadt loadl next => ⟨rsel, 14, bs, f1, f2, loadt, loadl, next⟩
  | .aluUndef15 rsel bs f1 f2 loadt loadl next => ⟨rsel, 15, bs, f1, f2, loadt, loadl, next⟩
  | .bsReadr rsel aluf f1 f2 loadt loadl next => ⟨rsel, aluf, 0, f1, f2, loadt, loadl, next⟩
  | .bsLoadr rsel aluf f1 f2 loadt loadl next => ⟨rsel, aluf, 1, f1, f2, loadt, loadl, next⟩
  | .bsNone rsel aluf f1 f2 loadt loadl next => ⟨rsel, aluf, 2, f1, f2, loadt, loadl, next⟩
  | .bsTaskSlot3 rsel aluf f1 f2 loadt loadl next => ⟨rsel, aluf, 3, f1, f2, loadt, loadl, next⟩
  | .bsTaskSlot4 rsel aluf f1 f2 loadt loadl next => ⟨rsel, aluf, 4, f1, f2, loadt, loadl, next⟩
  | .bsReadmd rsel aluf f1 f2 loadt loadl next => ⟨rsel, aluf, 5, f1, f2, loadt, loadl, next⟩
  | .bsMouse rsel aluf f1 f2 loadt loadl next => ⟨rsel, aluf, 6, f1, f2, loadt, loadl, next⟩
  | .bsDisp rsel aluf f1 f2 loadt loadl next => ⟨rsel, aluf, 7, f1, f2, loadt, loadl, next⟩
  | .f1None rsel aluf bs f2 loadt loadl next => ⟨rsel, aluf, bs, 0, f2, loadt, loadl, next⟩
  | .f1Loadmar rsel aluf bs f2 loadt loadl next => ⟨rsel, aluf, bs, 1, f2, loadt, loadl, next⟩
  | .f1Task rsel aluf bs f2 loadt loadl next => ⟨rsel, aluf, bs, 2, f2, loadt, loadl, next⟩
  | .f1Block rsel aluf bs f2 loadt loadl next => ⟨rsel, aluf, bs, 3, f2, loadt, loadl, next⟩
  | .f1Llsh1 rsel aluf bs f2 loadt loadl next => ⟨rsel, aluf, bs, 4, f2, loadt, loadl, next⟩
  | .f1Lrsh1 rsel aluf bs f2 loadt loadl next => ⟨rsel, aluf, bs, 5, f2, loadt, loadl, next⟩
  | .f1Llcy8 rsel aluf bs f2 loadt loadl next => ⟨rsel, aluf, bs, 6, f2, loadt, loadl, next⟩
  | .f1Const rsel aluf bs f2 loadt loadl next => ⟨rsel, aluf, bs, 7, f2, loadt, loadl, next⟩
  | .f1TaskSlot0o10 rsel aluf bs f2 loadt loadl next => ⟨rsel, aluf, bs, 8, f2, loadt, loadl, next⟩
  | .f1TaskSlot0o11 rsel aluf bs f2 loadt loadl next => ⟨rsel, aluf, bs, 9, f2, loadt, loadl, next⟩
  | .f1TaskSlot0o12 rsel aluf bs f2 loadt loadl next => ⟨rsel, aluf, bs, 10, f2, loadt, loadl, next⟩
  | .f1TaskSlot0o13 rsel aluf bs f2 loadt loadl next => ⟨rsel, aluf, bs, 11, f2, loadt, loadl, next⟩
  | .f1TaskSlot0o14 rsel aluf bs f2 loadt loadl next => ⟨rsel, aluf, bs, 12, f2, loadt, loadl, next⟩
  | .f1TaskSlot0o15 rsel aluf bs f2 loadt loadl next => ⟨rsel, aluf, bs, 13, f2, loadt, loadl, next⟩
  | .f1TaskSlot0o16 rsel aluf bs f2 loadt loadl next => ⟨rsel, aluf, bs, 14, f2, loadt, loadl, next⟩
  | .f1TaskSlot0o17 rsel aluf bs f2 loadt loadl next => ⟨rsel, aluf, bs, 15, f2, loadt, loadl, next⟩
  | .f2None rsel aluf bs f1 loadt loadl next => ⟨rsel, aluf, bs, f1, 0, loadt, loadl, next⟩
  | .f2Buseq0 rsel aluf bs f1 loadt loadl next => ⟨rsel, aluf, bs, f1, 1, loadt, loadl, next⟩
  | .f2Shlt0 rsel aluf bs f1 loadt loadl next => ⟨rsel, aluf, bs, f1, 2, loadt, loadl, next⟩
  | .f2Sheq0 rsel aluf bs f1 loadt loadl next => ⟨rsel, aluf, bs, f1, 3, loadt, loadl, next⟩
  | .f2Bus rsel aluf bs f1 loadt loadl next => ⟨rsel, aluf, bs, f1, 4, loadt, loadl, next⟩
  | .f2Alucy rsel aluf bs f1 loadt loadl next => ⟨rsel, aluf, bs, f1, 5, loadt, loadl, next⟩
  | .f2Loadmd rsel aluf bs f1 loadt loadl next => ⟨rsel, aluf, bs, f1, 6, loadt, loadl, next⟩
  | .f2Const rsel aluf bs f1 loadt loadl next => ⟨rsel, aluf, bs, f1, 7, loadt, loadl, next⟩
  | .f2TaskSlot0o10 rsel aluf bs f1 loadt loadl next => ⟨rsel, aluf, bs, f1, 8, loadt, loadl, next⟩
  | .f2TaskSlot0o11 rsel aluf bs f1 loadt loadl next => ⟨rsel, aluf, bs, f1, 9, loadt, loadl, next⟩
  | .f2TaskSlot0o12 rsel aluf bs f1 loadt loadl next => ⟨rsel, aluf, bs, f1, 10, loadt, loadl, next⟩
  | .f2TaskSlot0o13 rsel aluf bs f1 loadt loadl next => ⟨rsel, aluf, bs, f1, 11, loadt, loadl, next⟩
  | .f2TaskSlot0o14 rsel aluf bs f1 loadt loadl next => ⟨rsel, aluf, bs, f1, 12, loadt, loadl, next⟩
  | .f2TaskSlot0o15 rsel aluf bs f1 loadt loadl next => ⟨rsel, aluf, bs, f1, 13, loadt, loadl, next⟩
  | .f2TaskSlot0o16 rsel aluf bs f1 loadt loadl next => ⟨rsel, aluf, bs, f1, 14, loadt, loadl, next⟩
  | .f2TaskSlot0o17 rsel aluf bs f1 loadt loadl next => ⟨rsel, aluf, bs, f1, 15, loadt, loadl, next⟩
  | .loadT rsel aluf bs f1 f2 loadl next => ⟨rsel, aluf, bs, f1, f2, true, loadl, next⟩
  | .loadL rsel aluf bs f1 f2 loadt next => ⟨rsel, aluf, bs, f1, f2, loadt, true, next⟩

/-- The 32-bit word with these fields (R90). -/
def encodeFields (d : Microword) : UWord :=
  (d.rsel.setWidth 32 <<< 27) ||| (d.aluf.setWidth 32 <<< 23) ||| (d.bs.setWidth 32 <<< 20) ||| (d.f1.setWidth 32 <<< 16) |||
    (d.f2.setWidth 32 <<< 12) ||| ((BitVec.ofBool d.loadt).setWidth 32 <<< 11) |||
    ((BitVec.ofBool d.loadl).setWidth 32 <<< 10) ||| d.next.setWidth 32

/-- The word of an instruction. -/
def encode (i : Instr) : UWord := encodeFields (instrFields i)

end Sys2Proof
end

