-- ==== Sys2Proof/Machine/Flags.lean ====
section
/-! DEFINITION. The ALU (40_alu.md): each function's result with its carry, T-source and arithmetic-class outputs. -/

namespace Sys2Proof.Machine

/-- Which value load-T latches (R140). -/
inductive TSource
  | alu
  | bus
deriving DecidableEq, Repr

/-- The outputs of the ALU (R120). -/
structure AluOut where
  alu   : Word
  aluc0 : Bool
  tsrc  : TSource
  arith : Bool
deriving DecidableEq, Repr

/-- The outputs of a logic function: the carry is forced to 1 (R142). -/
def logicOut (v : Word) (src : TSource) : AluOut := { alu := v, aluc0 := true, tsrc := src, arith := false }

/-- The outputs of an arithmetic function with exact sum `s`: bits 15:0 and bit 16 (R138). -/
def sumOut (s : Nat) (src : TSource) : AluOut :=
  { alu := BitVec.ofNat 16 s, aluc0 := s.testBit 16, tsrc := src, arith := true }

/-- The carry convention of the subtracting functions (R139). -/
def subCarry (k : SubCarry) (c : Bool) : Bool :=
  match k with
  | .noBorrow => c
  | .borrow => !c

/-- The outputs of a subtracting function with exact sum `s` (R138, R139). -/
def diffOut (k : SubCarry) (s : Nat) (src : TSource) : AluOut :=
  { sumOut s src with aluc0 := subCarry k (s.testBit 16) }

/-- ALU function 0 (R122). -/
def aluFnBus (bus : Word) : AluOut := logicOut bus .alu

/-- ALU function 1 (R123). -/
def aluFnT (t : Word) : AluOut := logicOut t .bus

/-- ALU function 2 (R124). -/
def aluFnBusOrT (bus t : Word) : AluOut := logicOut (bus ||| t) .alu

/-- ALU function 3 (R125). -/
def aluFnBusAndT (bus t : Word) : AluOut := logicOut (bus &&& t) .bus

/-- ALU function 4 (R126). -/
def aluFnBusXorT (bus t : Word) : AluOut := logicOut (bus ^^^ t) .bus

/-- ALU function 5 (R127). -/
def aluFnBusPlus1 (bus : Word) : AluOut := sumOut (bus.toNat + 1) .alu

/-- ALU function 6 (R128). -/
def aluFnBusMinus1 (k : SubCarry) (bus : Word) : AluOut := diffOut k (bus.toNat + 0xFFFF) .alu

/-- ALU function 7 (R129). -/
def aluFnBusPlusT (bus t : Word) : AluOut := sumOut (bus.toNat + t.toNat) .bus

/-- ALU function 8 (R130). -/
def aluFnBusMinusT (k : SubCarry) (bus t : Word) : AluOut := diffOut k (bus.toNat + (~~~t).toNat + 1) .bus

/-- ALU function 9 (R131). -/
def aluFnBusMinusTMinus1 (k : SubCarry) (bus t : Word) : AluOut := diffOut k (bus.toNat + (~~~t).toNat) .bus

/-- ALU function 10 (R132). -/
def aluFnBusPlusTPlus1 (bus t : Word) : AluOut := sumOut (bus.toNat + t.toNat + 1) .alu

/-- ALU function 11 (R133). -/
def aluFnBusPlusSkip (bus : Word) (skip : Bool) : AluOut := sumOut (bus.toNat + skip.toNat) .alu

/-- ALU function 12 (R134). -/
def aluFnBusDotT (bus t : Word) : AluOut := logicOut (bus &&& t) .alu

/-- ALU function 13 (R135). -/
def aluFnBusAndNotT (bus t : Word) : AluOut := logicOut (bus &&& ~~~t) .bus

/-- ALU function 14: 0, carry forced to 1, arithmetic class (R136). -/
def aluFnUndef14 : AluOut := { alu := 0, aluc0 := true, tsrc := .bus, arith := true }

/-- ALU function 15: all ones, carry forced to 1, arithmetic class (R137). -/
def aluFnUndef15 : AluOut := { alu := 0xFFFF, aluc0 := true, tsrc := .bus, arith := true }

/-- The ALU (R120). -/
def aluFn (k : SubCarry) (aluf : BitVec 4) (bus t : Word) (skip : Bool) : AluOut :=
  match aluf.toNat with
  | 0 => aluFnBus bus
  | 1 => aluFnT t
  | 2 => aluFnBusOrT bus t
  | 3 => aluFnBusAndT bus t
  | 4 => aluFnBusXorT bus t
  | 5 => aluFnBusPlus1 bus
  | 6 => aluFnBusMinus1 k bus
  | 7 => aluFnBusPlusT bus t
  | 8 => aluFnBusMinusT k bus t
  | 9 => aluFnBusMinusTMinus1 k bus t
  | 10 => aluFnBusPlusTPlus1 bus t
  | 11 => aluFnBusPlusSkip bus skip
  | 12 => aluFnBusDotT bus t
  | 13 => aluFnBusAndNotT bus t
  | 14 => aluFnUndef14
  | _ => aluFnUndef15

/-- The carry that an L load latches: the ALU carry for the arithmetic class, else 0 (R165). -/
def latchedCarry (o : AluOut) : Bool := o.arith && o.aluc0

/-- The value that load-T latches (R167). -/
def tSource (o : AluOut) (bus : Word) : Word :=
  match o.tsrc with
  | .alu => o.alu
  | .bus => bus

end Sys2Proof.Machine
end

