-- ==== Sys2Proof/Machine/Store.lean ====
section
/-! DEFINITION. The microcode store as plain data, and what cold reset puts into it. The smallest addressable unit is the
32-bit word (R75, notes/assumptions 8). -/

namespace Sys2Proof.Machine

/-- Words in stored form by address, in one canonical form: addresses strictly rising. An unlisted address holds no value
(`undef`), so every listed word is one that an image or a write has put there. -/
abbrev Memory := List (Nat × UWord)

/-- The canonical form: each address is below every later one. -/
def Memory.wf : Memory → Bool
  | [] => true
  | [_] => true
  | (a, _) :: (b, w) :: rest => decide (a < b) && Memory.wf ((b, w) :: rest)

/-- The stored word at an address, or `none` where nothing has written it. -/
def Memory.read : Memory → Nat → Option UWord
  | [], _ => none
  | (b, w) :: rest, a => if a = b then some w else if a < b then none else Memory.read rest a

/-- The store with the word at an address replaced. -/
def Memory.write : Memory → Nat → UWord → Memory
  | [], a, v => [(a, v)]
  | (b, w) :: rest, a, v =>
    if a = b then (a, v) :: rest
    else if a < b then (a, v) :: (b, w) :: rest
    else (b, w) :: Memory.write rest a v

/-- The store with the words of an image written at `base` on, those at or above `size` left out. -/
def loadImage (base size : Nat) : List (Nat × UWord) → Memory → Memory
  | [], st => st
  | (a, v) :: rest, st => loadImage base size rest (if a < size then st.write (base + a) v else st)

/-- The store at cold reset: `ROM_IMAGE` in the ROM pages, `RAM_IMAGE` in the RAM pages (R38, R50, R300). -/
def bootStore (c : Config) : Memory :=
  loadImage (c.romPages * pageSize) (c.ramPages * pageSize) c.ramImage
    (loadImage 0 (c.romPages * pageSize) c.romImage [])

/-- The start micro address of task `k` (R32). -/
def bootMpc (c : Config) (k : Task) : MicroAddr := BitVec.ofNat 10 (at16 c.initOffset k)

/-- The start page of task `k`: ROM page 0 where its RESET_MODE bit is 1, else the first RAM page (R32). -/
def bootPage (c : Config) (k : Task) : Nat := if c.resetMode.getLsbD k.toNat then 0 else c.romPages

/-- The start micro addresses of all tasks (R32). -/
def bootMpcs (c : Config) : Vector MicroAddr 16 := Vector.ofFn (fun k : Fin 16 => bootMpc c (BitVec.ofFin k))

/-- The start pages of all tasks (R32). -/
def bootPages (c : Config) : Vector Nat 16 := Vector.ofFn (fun k : Fin 16 => bootPage c (BitVec.ofFin k))

/-- The default parameters of 00_scope.md section 4; no image, no constant and no installed operation is given. -/
def defaultConfig : Config :=
  { romPages := 1
    ramPages := 3
    pageBits := 2
    invMask := 0xFFFFFFFF
    romImage := []
    ramImage := []
    constRom := []
    initOffset := #v[0, 1, 2, 3, 4, 5, 6, 7, 8, 9, 10, 11, 12, 13, 14, 15]
    resetMode := 0xFFFF
    ramRelated := 0x0001
    sBanks := 8
    subCarry := .noBorrow
    cramBankWrap := false
    f1Const := 7
    f2Const := 7
    bsConstThreshold := 8
    loadrBus := 0
    quirkEnable := true
    quirkReg := 31
    bankregBase := 0o177740
    table := []
    slotNames := []
    becameActive := 0 }

/-- The inputs of an iteration in which the environment does nothing: no stall, every datum 0, no event. Cold reset lists it
for the first iteration, under every configuration (State.cold, so State.reset and coldReset too), where the spec allows any
value (DESIGN CHOICE, notes/assumptions 6). -/
def quietInputs : Inputs :=
  { skip := false, marStall := 0, writeStall := false, readStall := false, readMem := 0, mouse := 0, disp := 0,
    device := [], leave := false, events := [] }

end Sys2Proof.Machine
end

