-- ==== Sys2Proof/Machine/State.lean ====
section
/-! DEFINITION. The state of the core as plain data (10_state.md), the reasons a step can stop, and the state after reset. -/

namespace Sys2Proof.Machine

/-- The two kinds of fatal error (R270 to R272). -/
inductive FatalKind
  /-- A dispatch reached a task-specific slot that no initializer filled (R271). -/
  | unsetTaskSpecific
  /-- The scheduler found an empty wakeup mask during arbitration (R272). -/
  | emptyWakeupMask
deriving DecidableEq, Repr

/-- What a fatal error reports: kind, current task, micro address of the word being executed, and the offending field with
its value (R270). -/
structure Fatal where
  kind   : FatalKind
  task   : Task
  mpc    : MicroAddr
  family : Family
  code   : Nat
deriving DecidableEq, Repr

/-- The run state (R42). -/
inductive RunState
  | running
  | halted (reason : Fatal)
deriving DecidableEq, Repr

/-- Why the model stops with a fault: the model outcome `ModelFault` of R276. -/
inductive Fault
  /-- `UFetch` of a store word that nothing has written (R52). Raised by the fetch of a step. Safe: the hardware goes on with
  some word, the model proves nothing about it. -/
  | unwrittenFetch (addr : Nat)
  /-- `URamRead` of a RAM word that nothing has written (R63). Raised by the pending read of a cycle. Safe, as above. -/
  | unwrittenRam (bank word : Nat)
deriving DecidableEq, Repr

/-- Why the model gives no meaning: the refusals of R276. -/
inductive Refusal
  /-- An instruction that has no meaning yet; no arm of exec answers it. Safe: nothing is proved about it. -/
  | notModelled (mnemonic : String)
  /-- A microcode-RAM read request whose address has romsel = 1 (R63, R67). Raised by the pending read of a cycle. Safe: the
  spec gives such a read no value and refuses it. -/
  | romReadThroughRamPort
  /-- An installed operation acted outside the ports of R245. Raised by the act. Safe: the spec refuses it. -/
  | unmodelledOperation
  /-- A configuration that is not well formed (R4). Raised by coldReset. Safe: the spec refuses it. -/
  | illFormedConfig
deriving DecidableEq, Repr

/-- A call the core made, or an answer it gave, across its boundary. -/
inductive Call
  /-- `load_mar(register_select, physical_address)` (R201). -/
  | loadMar (i : RegNum) (addr : Word)
  /-- `write_mem(value)` (R226). -/
  | writeMem (v : Word)
  /-- `read_mem()` (R185). -/
  | readMem
  /-- `mouse_hook()` (R186). -/
  | mouse
  /-- `disp_hook()` (R187). -/
  | disp
  /-- The became-active callback of a task (R256). -/
  | becameActive (k : Task)
  /-- A write of an installed operation to its own device (R245). -/
  | device (k : Nat) (v : Word)
  /-- The answer to a read of the bank-register window (R71, R72). -/
  | busAnswer (addr v : Word)
  /-- The task id that a soft reset returns (R302). -/
  | softResetAnswer (k : Task)
deriving DecidableEq, Repr

/-- The whole state. -/
structure State where
  /-- The run state (R42). -/
  run : RunState
  /-- The configuration, fixed while the core runs (00_scope.md section 4, R33, R40). -/
  cfg : Config
  /-- The current task (R41). -/
  task : Task
  /-- The micro address of the current task's next fetch (R31). -/
  mpc : MicroAddr
  /-- The page number of the current task (R31). -/
  page : Nat
  /-- R[0..31] (R20). -/
  r : Vector Word 32
  /-- S[b][0..31], one file per bank (R21). -/
  sregs : List (Vector Word 32)
  /-- L (R22). -/
  l : Word
  /-- T (R24). -/
  t : Word
  /-- M (R25). -/
  m : Word
  /-- LALUC0 (R23). -/
  laluc0 : Bool
  /-- task_mpc (R32). -/
  taskMpc : Vector MicroAddr 16
  /-- task_page (R32). -/
  taskPage : Vector Nat 16
  /-- sbank (R34). -/
  sbank : Vector Nat 16
  /-- The pending-write record (R36). -/
  wrPend : Bool
  wrAddr : Word
  /-- The pending-read record (R37). -/
  rdPend : Bool
  rdAddr : Word
  /-- UROM and URAM in stored form, by fetch address (R38, R50, R51). -/
  store : Memory
  /-- The bank-configuration registers (R39). -/
  bankreg : Vector (BitVec 4) 16
  /-- The scheduler's wakeup mask (R278). -/
  wakeup : BitVec 16
  /-- The scheduler's requested-next-task (R35, notes/assumptions 9). -/
  reqTask : Task
  /-- The scheduler's confirmed-next-task (R35, notes/assumptions 9). -/
  confTask : Task
  /-- The model's own: iterations run, one peripheral-hook call each (R243). -/
  ticks : Nat
  /-- The model's own: the environment's inputs of this iteration and the next ones (notes/assumptions 6). -/
  inputs : List Inputs
  /-- The model's own: the calls made, newest first (notes/assumptions 10). -/
  calls : List Call
deriving DecidableEq, Repr

/-- The state after a cold reset under a configuration (R300). The zeros of R, S, L, T, M and LALUC0 are a DESIGN CHOICE
(notes/assumptions 1), those of the pending addresses and the scheduler's pipeline too (notes/assumptions 2). The quiet inputs
of the first iteration are a DESIGN CHOICE as well (notes/assumptions 6): the spec allows any. -/
def State.cold (c : Config) : State :=
  { run := .running
    cfg := c
    task := 0
    mpc := bootMpc c 0
    page := bootPage c 0
    r := Vector.replicate 32 0
    sregs := List.replicate c.sBanks (Vector.replicate 32 0)
    l := 0
    t := 0
    m := 0
    laluc0 := false
    taskMpc := bootMpcs c
    taskPage := bootPages c
    sbank := Vector.replicate 16 0
    wrPend := false
    wrAddr := 0
    rdPend := false
    rdAddr := 0
    store := bootStore c
    bankreg := Vector.replicate 16 0
    wakeup := 1
    reqTask := 0
    confTask := 0
    ticks := 0
    inputs := [quietInputs]
    calls := [] }

/-- The machine right after reset, under the default configuration (R300). -/
def State.reset : State := State.cold defaultConfig

/-- The environment's inputs of this iteration: the first listed, or a free value (notes/assumptions 6). -/
def State.input (s : State) : Inputs :=
  match s.inputs with
  | [] => Config.freeInputs s.ticks
  | x :: _ => x

end Sys2Proof.Machine
end

