-- ==== Sys2Proof/Machine/Operands.lean ====
section
/-! DEFINITION. The operands a microword assembles: the constant (R152, R153), the shifter (R160), the fields of a
microcode-RAM address (R60, R61), and the stall predicate (R248). -/

namespace Sys2Proof.Machine

/-- The code values of R102 that the core itself acts on. -/
def f1Loadmar : BitVec 4 := 1
def f1Llsh1 : BitVec 4 := 4
def f1Lrsh1 : BitVec 4 := 5
def f1Llcy8 : BitVec 4 := 6
def f2Loadmd : BitVec 4 := 6
def bsReadmd : BitVec 3 := 5

/-- Whether the word takes the constant path (R152). -/
def constSel (c : Config) (d : Microword) : Bool :=
  d.f1 == c.f1Const || d.f2 == c.f2Const || decide (c.bsConstThreshold ≤ d.bs.toNat)

/-- The index of a word's constant (R153). -/
def constIndex (rsel : RegNum) (bs : BitVec 3) : Nat := rsel.toNat * 8 + bs.toNat

/-- The entry a table of given words lists for an index. -/
def lookupWord : List (Nat × Word) → Nat → Option Word
  | [], _ => none
  | (k, v) :: rest, i => if i = k then some v else lookupWord rest i

/-- `CONST_ROM[i]`: the constant the configuration gives, else a free value (R40, notes/assumptions 7). -/
def constWord (c : Config) (i : Nat) : Word := (lookupWord c.constRom i).getD (Config.freeConst i)

/-- The shifter's output, by the code of F1 alone (R160). Where `F1_CONST` is configured to a shift code, the word still shifts,
although R207 passes L through for the constant value (DESIGN CHOICE, notes/assumptions 21). -/
def shifterOut (f1 : BitVec 4) (l t : Word) (magic : Bool) : Word :=
  if f1 = f1Llsh1 then (if magic then (l <<< 1) ||| (t >>> 15) else l <<< 1)
  else if f1 = f1Lrsh1 then (if magic then (l >>> 1) ||| (t <<< 15) else l >>> 1)
  else if f1 = f1Llcy8 then (l <<< 8) ||| (l >>> 8)
  else l

/-- The word number of a RAM address (R60). -/
def ramWord (a : Word) : Nat := (a.extractLsb' 0 10).toNat

/-- The half of a RAM address: true is bits 31:16 (R60). -/
def ramHalf (a : Word) : Bool := a.getLsbD 10

/-- The ROM-select bit of a RAM address (R60). -/
def ramRomsel (a : Word) : Bool := a.getLsbD 11

/-- The bank field of a RAM address (R60). -/
def ramBank (a : Word) : Nat := (a.extractLsb' 12 2).toNat

/-- The bank that the ports use for a bank number, where it is in range (R61). -/
def bankInRange (c : Config) (b : Nat) : Option Nat :=
  let b' := if c.cramBankWrap then b % c.ramPages else b
  if b' < c.ramPages then some b' else none

/-- The fetch address of a word of a RAM bank (R50). -/
def ramAddr (c : Config) (bank word : Nat) : Nat := (c.romPages + bank) * pageSize + word

/-- Whether the memory collaborator stalls the word (R248). Where `F1_CONST` is configured to LOADMAR's code or `F2_CONST` to
LOADMD's, the query is still asked (DESIGN CHOICE, notes/assumptions 21). -/
def stalled (d : Microword) (s : State) : Bool :=
  (d.f1 == f1Loadmar && s.input.marStall.getLsbD d.rsel.toNat) ||
    (d.f2 == f2Loadmd && s.input.writeStall) ||
    (d.bs == bsReadmd && !constSel s.cfg d && s.input.readStall)

end Sys2Proof.Machine
end

