-- ==== Sys2Proof/Machine/Ops.lean ====
section
/-! DEFINITION. The named operations on the state: register ports, microcode-RAM ports, bank registers, the scheduler's
interface, and taking a fatal error. -/

namespace Sys2Proof.Machine

/-- The R read port (R156). -/
def readR (s : State) (i : RegNum) : Word := at32 s.r i

/-- The value the R write port stores: the workaround clears two low bits of one register (R159). -/
def quirkValue (c : Config) (i : RegNum) (v : Word) : Word :=
  if c.quirkEnable && i == c.quirkReg && v &&& 3 != 0 then v &&& 0xFFFC else v

/-- The R write port (R157, R159). -/
def writeR (s : State) (i : RegNum) (v : Word) : State := { s with r := set32 s.r i (quirkValue s.cfg i v) }

/-- The S read port: register `i` of bank `b`, `none` where there is no such bank (R158). -/
def readS (s : State) (b : Nat) (i : RegNum) : Option Word := (s.sregs[b]?).map (fun f => at32 f i)

/-- The S write port (R158); a bank that does not exist is left to the caller. -/
def writeS (s : State) (b : Nat) (i : RegNum) (v : Word) : State :=
  match s.sregs[b]? with
  | some f => { s with sregs := s.sregs.set b (set32 f i v) }
  | none => s

/-- `SetSBank(k, b)` (R158). -/
def setSBank (s : State) (k : Task) (b : Nat) : State := { s with sbank := set16 s.sbank k b }

/-- Whether a task is ram-related (R33). -/
def ramRelated (c : Config) (k : Task) : Bool := c.ramRelated.getLsbD k.toNat

/-- `SetPage(p)` for the current task: the low PAGE_BITS bits (R245, notes/assumptions 12). -/
def setPage (s : State) (p : Nat) : State := { s with page := p % 2 ^ s.cfg.pageBits }

/-- One more call across the boundary. -/
def logCall (s : State) (k : Call) : State := { s with calls := k :: s.calls }

/-- `RequestURamWrite()`: the address is T as it stands (R62, R64). -/
def requestURamWrite (s : State) : State := { s with wrPend := true, wrAddr := s.t }

/-- `RequestURamRead()`: the address is T as it stands (R62, R66). -/
def requestURamRead (s : State) : State := { s with rdPend := true, rdAddr := s.t }

/-- `URamRead(bank, word, half)`: the sentinel 0xFFFF out of range, else a half of the logical word (R63). -/
def uRamRead (s : State) (bank word : Nat) (half : Bool) : Except Fault Word :=
  match bankInRange s.cfg bank with
  | none => .ok 0xFFFF
  | some b =>
    match s.store.read (ramAddr s.cfg b word) with
    | none => .error (.unwrittenRam b word)
    | some w =>
      let v := w ^^^ s.cfg.invMask
      .ok (if half then v.extractLsb' 16 16 else v.extractLsb' 0 16)

/-- `URamWrite(bank, word, v)` for a bank that the ports use (R68). -/
def uRamWrite (s : State) (bank word : Nat) (v : UWord) : State :=
  { s with store := s.store.write (ramAddr s.cfg bank word) (v ^^^ s.cfg.invMask) }

/-- Step 7, the write-back of a pending request with this cycle's ALU result: M is the high half (R65). -/
def writeBack (s : State) (alu : Word) : State :=
  if s.wrPend then
    let s' := { s with wrPend := false }
    match bankInRange s.cfg (ramBank s.wrAddr) with
    | some b => uRamWrite s' b (ramWord s.wrAddr) (s.m ++ alu)
    | none => s'
  else s

/-- `BankRegWrite(off, v)` (R70). -/
def bankRegWrite (s : State) (off : BitVec 4) (v : Word) : State :=
  { s with bankreg := set16 s.bankreg off (v.extractLsb' 0 4) }

/-- `BankRegRead(off)` (R71). -/
def bankRegRead (s : State) (off : BitVec 4) : Word := (at16 s.bankreg off).setWidth 16 ||| 0xFFF0

/-- The entry of the bank-register window that an address reaches (R72, R283). Addresses are 16 bits wide and the window goes
round at 2^16, where the base is above 0xFFF0 (DESIGN CHOICE, notes/assumptions 20). -/
def bankRegOffset (c : Config) (addr : Word) : Option (BitVec 4) :=
  if addr - c.bankregBase < 16 then some ((addr - c.bankregBase).setWidth 4) else none

/-- A device or a scheduler call sets a wakeup bit (R280). -/
def wake (s : State) (k : Task) : State := { s with wakeup := s.wakeup ||| BitVec.twoPow 16 k.toNat }

/-- A device or a scheduler call clears a wakeup bit (R280). -/
def unwake (s : State) (k : Task) : State := { s with wakeup := s.wakeup &&& ~~~BitVec.twoPow 16 k.toNat }

/-- The highest set bit among the `n` low bits of a wakeup mask (R279). -/
def highestBelow (mask : BitVec 16) : Nat → Option Task
  | 0 => none
  | n + 1 => if mask.getLsbD n then some (BitVec.ofNat 4 n) else highestBelow mask n

/-- The scheduler's arbitration: scan from bit 15 down to bit 0; `none` for an empty mask (R279, R272). -/
def highestWakeup (mask : BitVec 16) : Option Task := highestBelow mask 16

/-- The task switch of R256: save, restore, callback. -/
def switchTo (s : State) (j : Task) : State :=
  let s' := { s with
    taskMpc := set16 s.taskMpc s.task s.mpc
    taskPage := set16 s.taskPage s.task s.page
    mpc := at16 (set16 s.taskMpc s.task s.mpc) j
    page := at16 (set16 s.taskPage s.task s.page) j
    task := j }
  if s.cfg.becameActive.getLsbD j.toNat then logCall s' (.becameActive j) else s'

/-- Step 10's switch evaluation: the confirmed task becomes current, then the requested task becomes the confirmed one
(R255 to R257, notes/assumptions 9). -/
def switchEvaluation (s : State) : State :=
  let s' := if s.confTask ≠ s.task then switchTo s s.confTask else s
  { s' with confTask := s.reqTask }

/-- A fatal error is taken: the core halts with the report, and the state is else that of the start of the cycle (R270).
Only a cold reset leaves it (R42): there is no return. -/
def takeFatal (s : State) (f : Fatal) : State := { s with run := .halted f }

end Sys2Proof.Machine
end

