-- ==== Sys2Proof/Machine/Ports.lean ====
section
/-! DEFINITION. A microcycle in flight, and what an installed operation may do to it: the ports of R245. -/

namespace Sys2Proof.Machine

/-- Why a cycle stops at the point it has reached (R277). -/
inductive Stop
  | fatal (f : Fatal)
  | fault (e : Fault)
  | refused (r : Refusal)
deriving DecidableEq, Repr

/-- A microcycle in flight: the word, the state so far, and the values of one cycle only (R26 to R30). -/
structure Cyc where
  /-- The word being executed. -/
  d     : Microword
  /-- The state as the cycle has changed it so far. -/
  st    : State
  /-- R26. -/
  bus   : Word
  /-- R27. -/
  rsel  : RegNum
  /-- R30. -/
  nmod  : MicroAddr
  /-- R161. -/
  magic : Bool
  /-- The ALU's outputs, from step 6 on (R28). -/
  alu   : Option AluOut
  /-- What the calls of installed operations were answered in this cycle, newest first (`Act.ask`). -/
  answers : List Word
deriving DecidableEq, Repr

/-- The cycle after steps 2 and 4: rsel from the word, nmod 0, magic false, the bus all ones (R150, R247). -/
def startCycle (d : Microword) (s : State) : Cyc :=
  { d := d, st := s, bus := 0xFFFF, rsel := d.rsel, nmod := 0, magic := false, alu := none, answers := [] }

/-- A contribution to the bus (R151). -/
def andBus (v : Word) (c : Cyc) : Cyc := { c with bus := c.bus &&& v }

/-- Injected branch bits (R252). -/
def orNext (v : Word) (c : Cyc) : Cyc := { c with nmod := c.nmod ||| v.extractLsb' 0 10 }

/-- The state of a cycle changed. -/
def mapState (f : State → State) (c : Cyc) : Cyc := { c with st := f c.st }

/-- The shifter's output as it stands: L and T before the commit, the cycle's magic input (R160, R162). -/
def Cyc.shifter (c : Cyc) : Word := shifterOut c.d.f1 c.st.l c.st.t c.magic

/-- The ALU result, 0 before step 6 (a default operation reads it only in the late phase). -/
def Cyc.aluWord (c : Cyc) : Word :=
  match c.alu with
  | some o => o.alu
  | none => 0

/-- What an installed operation reads when it asks for a value that R245 does not give it: one that the step does not have
('as available at the step'), or an S register of a bank that does not exist (R158). The spec's own stop: anything else 'is
refused by the model' (R245, R276, D29). -/
def notAvailable : Except Stop Word := .error (.refused .unmodelledOperation)

/-- What register `k` of an installed operation's device reads as (notes/assumptions 6). -/
def deviceWord (s : State) (k : Nat) : Word := (s.input.device[k]?).getD (Config.freeDevice s.ticks k)

/-- The answer to the `k`-th latest question of the cycle, 0 where fewer were asked (notes/assumptions 11). -/
def answerWord (c : Cyc) (k : Nat) : Word := (c.answers[k]?).getD 0

/-- A call has been answered. -/
def answered (v : Word) (c : Cyc) : Cyc := { c with answers := v :: c.answers }

/-- The value of an installed operation's expression, in a phase (R245). -/
def evalVal (ph : Phase) (c : Cyc) : Val → Except Stop Word
  | .lit v => .ok v
  | .bus => .ok c.bus
  | .alu =>
    match c.alu with
    | some o => .ok o.alu
    | none => notAvailable
  | .aluc0 =>
    match c.alu with
    | some o => .ok (bitWord o.aluc0)
    | none => notAvailable
  | .shifter =>
    match ph with
    | .late => .ok c.shifter
    | .early => notAvailable
  | .l => .ok c.st.l
  | .t => .ok c.st.t
  | .m => .ok c.st.m
  | .laluc0 => .ok (bitWord c.st.laluc0)
  | .rsel => .ok (c.rsel.setWidth 16)
  | .task => .ok (c.st.task.setWidth 16)
  | .mpc => .ok (c.st.mpc.setWidth 16)
  | .readR i => do
    let n ← evalVal ph c i
    .ok (readR c.st (n.extractLsb' 0 5))
  | .readS b i => do
    let bn ← evalVal ph c b
    let n ← evalVal ph c i
    match readS c.st bn.toNat (n.extractLsb' 0 5) with
    | some v => .ok v
    | none => notAvailable
  | .device k => .ok (deviceWord c.st k)
  | .answer k => .ok (answerWord c k)
  | .not a => do
    let x ← evalVal ph c a
    .ok (~~~x)
  | .and a b => do
    let x ← evalVal ph c a
    let y ← evalVal ph c b
    .ok (x &&& y)
  | .or a b => do
    let x ← evalVal ph c a
    let y ← evalVal ph c b
    .ok (x ||| y)
  | .xor a b => do
    let x ← evalVal ph c a
    let y ← evalVal ph c b
    .ok (x ^^^ y)
  | .add a b => do
    let x ← evalVal ph c a
    let y ← evalVal ph c b
    .ok (x + y)
  | .shl a n => do
    let x ← evalVal ph c a
    .ok (x <<< n)
  | .shr a n => do
    let x ← evalVal ph c a
    .ok (x >>> n)
  | .cond k a b => do
    let z ← evalVal ph c k
    if z ≠ 0 then evalVal ph c a else evalVal ph c b

/-- The fatal error of an unfilled task-specific slot (R271). -/
def unsetFatal (s : State) (fam : Family) (code : Nat) : Fatal :=
  { kind := .unsetTaskSpecific, task := s.task, mpc := s.mpc, family := fam, code := code }

/-- The fatal error of an empty wakeup mask; its field is the F1 TASK value (R272), also where an installed operation of another
selector value asked for the arbitration (DESIGN CHOICE, notes/assumptions 24). -/
def emptyMaskFatal (s : State) : Fatal :=
  { kind := .emptyWakeupMask, task := s.task, mpc := s.mpc, family := .f1, code := 2 }

/-- The scheduler's arbitration that a TASK word starts (R202, R279, R272). -/
def arbitrate (c : Cyc) : Except Stop Cyc :=
  match highestWakeup c.st.wakeup with
  | some j => .ok (mapState (fun s => { s with reqTask := j }) c)
  | none => .error (.fatal (emptyMaskFatal c.st))

/-- An act outside the ports of R245, or in a phase, family or task that its port does not have. The spec's own stop: anything
else 'is refused by the model' (R245, R276, D29). -/
def outsidePorts : Except Stop Cyc := .error (.refused .unmodelledOperation)

/-- A call of an installed operation that answers a value: any phase, and no effect on the core but the record of a read_mem or
hook call (the port table of R245, last row; R74, R248). -/
def runQuery (ph : Phase) (c : Cyc) : Query → Except Stop Cyc
  | .readMem => .ok (answered c.st.input.readMem (mapState (fun s => logCall s .readMem) c))
  | .mouse => .ok (answered c.st.input.mouse (mapState (fun s => logCall s .mouse) c))
  | .disp => .ok (answered c.st.input.disp (mapState (fun s => logCall s .disp) c))
  | .marStall i => do
    let n ← evalVal ph c i
    .ok (answered (bitWord (c.st.input.marStall.getLsbD (n.extractLsb' 0 5).toNat)) c)
  | .writeStall => .ok (answered (bitWord c.st.input.writeStall) c)
  | .readStall => .ok (answered (bitWord c.st.input.readStall) c)
  | .wakeups => .ok (answered c.st.wakeup c)
  | .requestedTask => .ok (answered (c.st.reqTask.setWidth 16) c)

/-- One act of an installed operation in a phase of a family (the port table of R245). -/
def runAct (ph : Phase) (fam : Family) (c : Cyc) : Act → Except Stop Cyc
  | .andBus v => do
    let x ← evalVal ph c v
    if ph = .early then .ok (andBus x c) else outsidePorts
  | .setRsel v => do
    let x ← evalVal ph c v
    if ph = .early ∧ fam = .f2 then .ok { c with rsel := x.extractLsb' 0 5 } else outsidePorts
  | .orNext v => do
    let x ← evalVal ph c v
    if ph = .late then .ok (orNext x c) else outsidePorts
  | .writeR i v => do
    let n ← evalVal ph c i
    let x ← evalVal ph c v
    .ok (mapState (fun s => writeR s (n.extractLsb' 0 5) x) c)
  | .writeS b i v => do
    let bn ← evalVal ph c b
    let n ← evalVal ph c i
    let x ← evalVal ph c v
    if bn.toNat < c.st.cfg.sBanks then .ok (mapState (fun s => writeS s bn.toNat (n.extractLsb' 0 5) x) c)
    else outsidePorts
  | .setSBank k b => do
    let kn ← evalVal ph c k
    let bn ← evalVal ph c b
    if bn.toNat < c.st.cfg.sBanks then .ok (mapState (fun s => setSBank s (kn.extractLsb' 0 4) bn.toNat) c)
    else outsidePorts
  | .requestURamWrite =>
    if ph = .late ∧ fam = .f1 ∧ ramRelated c.st.cfg c.st.task then .ok (mapState Machine.requestURamWrite c) else outsidePorts
  | .requestURamRead =>
    if ph = .late ∧ fam = .f1 ∧ ramRelated c.st.cfg c.st.task then .ok (mapState Machine.requestURamRead c) else outsidePorts
  | .setPage p => do
    let x ← evalVal ph c p
    if ph = .late then .ok (mapState (fun s => setPage s x.toNat) c) else outsidePorts
  | .setMagic => if fam = .f2 ∧ c.st.task = 0 then .ok { c with magic := true } else outsidePorts
  | .loadMar i v => do
    let n ← evalVal ph c i
    let x ← evalVal ph c v
    .ok (mapState (fun s => logCall s (.loadMar (n.extractLsb' 0 5) x)) c)
  | .writeMem v => do
    let x ← evalVal ph c v
    .ok (mapState (fun s => logCall s (.writeMem x)) c)
  | .andReadMem =>
    if ph = .early then .ok (andBus c.st.input.readMem (mapState (fun s => logCall s .readMem) c)) else outsidePorts
  | .ask q => runQuery ph c q
  | .device k v => do
    let x ← evalVal ph c v
    .ok (mapState (fun s => logCall s (.device k x)) c)
  | .wake k => do
    let kn ← evalVal ph c k
    .ok (mapState (fun s => wake s (kn.extractLsb' 0 4)) c)
  | .unwake k => do
    let kn ← evalVal ph c k
    .ok (mapState (fun s => unwake s (kn.extractLsb' 0 4)) c)
  | .arbitrate => Machine.arbitrate c
  | .onlyIf k a => do
    let z ← evalVal ph c k
    if z ≠ 0 then runAct ph fam c a else .ok c
  | .outside => outsidePorts

/-- An installed operation: its acts in order (`op.run(ports)` of R244). -/
def runActs (ph : Phase) (fam : Family) : List Act → Cyc → Except Stop Cyc
  | [], c => .ok c
  | a :: rest, c =>
    match runAct ph fam c a with
    | .ok c' => runActs ph fam rest c'
    | .error e => .error e

/-- What the dispatch table answers for a slot (R244). -/
inductive Resolved
  | installed (acts : List Act)
  | absent
  | unset
  | byDefault
deriving DecidableEq, Repr

/-- The entry an initializer installed in a slot. -/
def lookupSlot : List (Slot × Entry) → Slot → Option Entry
  | [], _ => none
  | (k, e) :: rest, i => if i = k then some e else lookupSlot rest i

/-- A reserved task-specific slot: BS 3 and 4, F1 and F2 0o10 to 0o17 (R103). -/
def taskSpecific (fam : Family) (code : Nat) : Bool :=
  match fam with
  | .bs => code == 3 || code == 4
  | .f1 => decide (8 ≤ code)
  | .f2 => decide (8 ≤ code)

/-- The other phase of a dispatch. -/
def otherPhase : Phase → Phase
  | .early => .late
  | .late => .early

/-- `TABLE(phase, task, family, code)`: what was installed; a task-specific slot that was filled in neither phase is unset,
one filled in the other phase only is absent here; any other slot keeps its default entry (R244). An explicit empty entry
fills a slot: one that holds nothing else is not fatal (DESIGN CHOICE, notes/assumptions 22). -/
def resolve (c : Config) (ph : Phase) (task : Task) (fam : Family) (code : Nat) : Resolved :=
  match lookupSlot c.table { phase := ph, task := task, family := fam, code := code } with
  | some (.op acts) => .installed acts
  | some .absent => .absent
  | none =>
    if taskSpecific fam code then
      match lookupSlot c.table { phase := otherPhase ph, task := task, family := fam, code := code } with
      | some _ => .absent
      | none => .unset
    else .byDefault

/-- `dispatch(phase, task, family, code)` for the current task, with the default entry's operation (R244). -/
def dispatch (ph : Phase) (fam : Family) (code : Nat) (dflt : Cyc → Except Stop Cyc) (c : Cyc) : Except Stop Cyc :=
  match resolve c.st.cfg ph c.st.task fam code with
  | .installed acts => runActs ph fam acts c
  | .absent => .ok c
  | .unset => .error (.fatal (unsetFatal c.st fam code))
  | .byDefault => dflt c

end Sys2Proof.Machine
end

