-- ==== Sys2Proof/Machine/BusSource.lean ====
section
/-! DEFINITION. The shared default operations of the bus-source family, early and late (42_bus_source.md). -/

namespace Sys2Proof.Machine

/-- READR, early (R180). -/
def readrEarly (c : Cyc) : Cyc := andBus (readR c.st c.rsel) c

/-- LOADR, early (R181). -/
def loadrEarly (c : Cyc) : Cyc := andBus c.st.cfg.loadrBus c

/-- LOADR, late (R181). -/
def loadrLate (c : Cyc) : Cyc := mapState (fun s => writeR s c.rsel c.shifter) c

/-- READMD, early (R185). -/
def readmdEarly (c : Cyc) : Cyc := andBus c.st.input.readMem (mapState (fun s => logCall s .readMem) c)

/-- MOUSE, early (R186). -/
def mouseEarly (c : Cyc) : Cyc := andBus c.st.input.mouse (mapState (fun s => logCall s .mouse) c)

/-- DISP, early (R187). -/
def dispEarly (c : Cyc) : Cyc := andBus c.st.input.disp (mapState (fun s => logCall s .disp) c)

/-- The default early operation of a BS value; the values without one do nothing (R180 to R187, R189). -/
def bsEarlyDefault (code : BitVec 3) (c : Cyc) : Except Stop Cyc :=
  match code.toNat with
  | 0 => .ok (readrEarly c)
  | 1 => .ok (loadrEarly c)
  | 5 => .ok (readmdEarly c)
  | 6 => .ok (mouseEarly c)
  | 7 => .ok (dispEarly c)
  | _ => .ok c

/-- The default late operation of a BS value (R180 to R187, R189). -/
def bsLateDefault (code : BitVec 3) (c : Cyc) : Except Stop Cyc :=
  match code.toNat with
  | 1 => .ok (loadrLate c)
  | _ => .ok c

/-- The bus-source step of a phase: not dispatched on the constant path (R154, R190). -/
def runBs (ph : Phase) (c : Cyc) : Except Stop Cyc :=
  if constSel c.st.cfg c.d then .ok c
  else
    match ph with
    | .early => dispatch .early .bs c.d.bs.toNat (bsEarlyDefault c.d.bs) c
    | .late => dispatch .late .bs c.d.bs.toNat (bsLateDefault c.d.bs) c

end Sys2Proof.Machine
end

