-- ==== Sys2Proof/Machine/F1.lean ====
section
/-! DEFINITION. The shared default operations of the F1 family, early and late (43_f1.md). The shift values 4 to 6 act
through the shifter (R160), which is no table entry (R217). -/

namespace Sys2Proof.Machine

/-- LOADMAR, late (R201). -/
def loadmarLate (c : Cyc) : Cyc := mapState (fun s => logCall s (.loadMar c.rsel c.aluWord)) c

/-- The default early operation of an F1 value: TASK asks the scheduler to arbitrate (R202). -/
def f1EarlyDefault (code : BitVec 4) (c : Cyc) : Except Stop Cyc :=
  match code.toNat with
  | 2 => arbitrate c
  | _ => .ok c

/-- The default late operation of an F1 value (R200 to R207). -/
def f1LateDefault (code : BitVec 4) (c : Cyc) : Except Stop Cyc :=
  match code.toNat with
  | 1 => .ok (loadmarLate c)
  | _ => .ok c

/-- The F1 step of a phase: the constant value dispatches nothing (R154, R207). -/
def runF1 (ph : Phase) (c : Cyc) : Except Stop Cyc :=
  if c.d.f1 = c.st.cfg.f1Const then .ok c
  else
    match ph with
    | .early => dispatch .early .f1 c.d.f1.toNat (f1EarlyDefault c.d.f1) c
    | .late => dispatch .late .f1 c.d.f1.toNat (f1LateDefault c.d.f1) c

end Sys2Proof.Machine
end

