-- ==== Sys2Proof/Machine/F2.lean ====
section
/-! DEFINITION. The shared default operations of the F2 family, early and late (44_f2.md). -/

namespace Sys2Proof.Machine

/-- A branch: bit 0 is injected where the condition holds (R252). -/
def branchIf (b : Bool) (c : Cyc) : Cyc := if b then orNext 1 c else c

/-- BUSEQ0, late (R221). -/
def buseq0Late (c : Cyc) : Cyc := branchIf (c.bus == 0) c

/-- SHLT0, late (R222). -/
def shlt0Late (c : Cyc) : Cyc := branchIf (c.shifter.getLsbD 15) c

/-- SHEQ0, late (R223). -/
def sheq0Late (c : Cyc) : Cyc := branchIf (c.shifter == 0) c

/-- BUS, late (R224). -/
def busLate (c : Cyc) : Cyc := orNext c.bus c

/-- ALUCY, late (R225). -/
def alucyLate (c : Cyc) : Cyc := branchIf c.st.laluc0 c

/-- LOADMD, late (R226). -/
def loadmdLate (c : Cyc) : Cyc := mapState (fun s => logCall s (.writeMem c.bus)) c

/-- The default late operation of an F2 value (R220 to R227). No F2 value has a default early operation. -/
def f2LateDefault (code : BitVec 4) (c : Cyc) : Except Stop Cyc :=
  match code.toNat with
  | 1 => .ok (buseq0Late c)
  | 2 => .ok (shlt0Late c)
  | 3 => .ok (sheq0Late c)
  | 4 => .ok (busLate c)
  | 5 => .ok (alucyLate c)
  | 6 => .ok (loadmdLate c)
  | _ => .ok c

/-- The F2 step of a phase: the constant value dispatches nothing (R154, R227). -/
def runF2 (ph : Phase) (c : Cyc) : Except Stop Cyc :=
  if c.d.f2 = c.st.cfg.f2Const then .ok c
  else
    match ph with
    | .early => dispatch .early .f2 c.d.f2.toNat .ok c
    | .late => dispatch .late .f2 c.d.f2.toNat (f2LateDefault c.d.f2) c

end Sys2Proof.Machine
end

