-- ==== Sys2Proof/Machine/Microcycle.lean ====
section
/-! DEFINITION. One microcycle, step by step (45_microcycle.md R246): the meaning that every microword shares. -/

namespace Sys2Proof.Machine

/-- Step 4a, the pending microcode-RAM read (R67). -/
def readPerform (c : Cyc) : Except Stop Cyc :=
  if c.st.rdPend then
    if ramRomsel c.st.rdAddr then .error (.refused .romReadThroughRamPort)
    else
      match uRamRead c.st (ramBank c.st.rdAddr) (ramWord c.st.rdAddr) (ramHalf c.st.rdAddr) with
      | .ok v => .ok (andBus v (mapState (fun s => { s with rdPend := false }) c))
      | .error e => .error (.fault e)
  else .ok c

/-- The constant of step 5, taken with the word's own register select (R153). -/
def constantPath (c : Cyc) : Cyc :=
  if constSel c.st.cfg c.d then andBus (constWord c.st.cfg (constIndex c.rsel c.d.bs)) c else c

/-- Steps 4 and 5: bus reset, pending read, constant, then early F2, early BS, early F1 (R249). -/
def earlyPhase (d : Microword) (s : State) : Except Stop Cyc := do
  let c0 ← readPerform (startCycle d s)
  let c1 ← runF2 .early (constantPath c0)
  let c2 ← runBs .early c1
  runF1 .early c2

/-- What the ALU computes from a cycle whose early phase is over (R121). -/
def cycleAlu (c : Cyc) : AluOut := aluFn c.st.cfg.subCarry c.d.aluf c.bus c.st.t c.st.input.skip

/-- Steps 6 and 7: the ALU, then the write-back (R250). -/
def aluPhase (c : Cyc) : Cyc :=
  { c with alu := some (cycleAlu c), st := writeBack c.st (cycleAlu c).alu }

/-- Step 8: late F1, late F2, late BS (R251). -/
def latePhase (c : Cyc) : Except Stop Cyc := do
  let c1 ← runF1 .late c
  let c2 ← runF2 .late c1
  runBs .late c2

/-- The L side of the commit: L, LALUC0, and for a ram-related task M and S[sbank][0] (R164 to R166). -/
def commitL (o : AluOut) (s : State) : State :=
  let s' := { s with l := o.alu, laluc0 := latchedCarry o }
  if ramRelated s.cfg s.task then writeS { s' with m := o.alu } (at16 s.sbank s.task) 0 o.alu else s'

/-- Step 9, the register commit (R163 to R167). -/
def commit (d : Microword) (o : AluOut) (bus : Word) (s : State) : State :=
  let s' := if d.loadl then commitL o s else s
  if d.loadt then { s' with t := tSource o bus } else s'

/-- Step 10: the next address, then the switch evaluation (R253, R254). -/
def nextAddress (d : Microword) (nmod : MicroAddr) (s : State) : State :=
  switchEvaluation { s with mpc := d.next ||| nmod }

/-- Steps 4 to 10 of a cycle that does not stall (R246). -/
def cycleBody (d : Microword) (s : State) : Except Stop State := do
  let c ← earlyPhase d s
  let c' ← latePhase (aluPhase c)
  .ok (nextAddress d c'.nmod (commit d (cycleAlu c) c.bus c'.st))

/-- The outcome of a cycle: a fatal error halts the core from the state at the start of the cycle (R270). -/
def cycleOutcome (s : State) : Except Stop State → Host.Outcome State Fault Refusal
  | .ok t => .next t
  | .error (.fatal f) => .next (takeFatal s f)
  | .error (.fault e) => .fault e
  | .error (.refused r) => .refused r

/-- One microcycle on a decoded word (R246): a halted core takes no cycle (R42), a stalled word changes nothing (R248). -/
def microcycle (d : Microword) (s : State) : Host.Outcome State Fault Refusal :=
  match s.run with
  | .halted _ => .next s
  | .running => if stalled d s then .next s else cycleOutcome s (cycleBody d s)

end Sys2Proof.Machine
end

