-- ==== Sys2Proof/Machine/AluRows.lean ====
section
/-! DEFINITION. The meanings of the sixteen ALU function rows (40_alu.md R122 to R137): each is the microcycle of the word in which the row fixes its own field and
the operands are the other fields. -/

namespace Sys2Proof.Machine

/-- ALU.BUS (R122). -/
def execAluBus (rsel : RegNum) (bs : BitVec 3) (f1 : BitVec 4) (f2 : BitVec 4) (loadt : Bool) (loadl : Bool) (next : MicroAddr) (s : State) :
    Host.Outcome State Fault Refusal :=
  microcycle ⟨rsel, 0, bs, f1, f2, loadt, loadl, next⟩ s

/-- ALU.T (R123). -/
def execAluT (rsel : RegNum) (bs : BitVec 3) (f1 : BitVec 4) (f2 : BitVec 4) (loadt : Bool) (loadl : Bool) (next : MicroAddr) (s : State) :
    Host.Outcome State Fault Refusal :=
  microcycle ⟨rsel, 1, bs, f1, f2, loadt, loadl, next⟩ s

/-- ALU.BUS_OR_T (R124). -/
def execAluBusOrT (rsel : RegNum) (bs : BitVec 3) (f1 : BitVec 4) (f2 : BitVec 4) (loadt : Bool) (loadl : Bool) (next : MicroAddr) (s : State) :
    Host.Outcome State Fault Refusal :=
  microcycle ⟨rsel, 2, bs, f1, f2, loadt, loadl, next⟩ s

/-- ALU.BUS_AND_T (R125). -/
def execAluBusAndT (rsel : RegNum) (bs : BitVec 3) (f1 : BitVec 4) (f2 : BitVec 4) (loadt : Bool) (loadl : Bool) (next : MicroAddr) (s : State) :
    Host.Outcome State Fault Refusal :=
  microcycle ⟨rsel, 3, bs, f1, f2, loadt, loadl, next⟩ s

/-- ALU.BUS_XOR_T (R126). -/
def execAluBusXorT (rsel : RegNum) (bs : BitVec 3) (f1 : BitVec 4) (f2 : BitVec 4) (loadt : Bool) (loadl : Bool) (next : MicroAddr) (s : State) :
    Host.Outcome State Fault Refusal :=
  microcycle ⟨rsel, 4, bs, f1, f2, loadt, loadl, next⟩ s

/-- ALU.BUS_PLUS_1 (R127). -/
def execAluBusPlus1 (rsel : RegNum) (bs : BitVec 3) (f1 : BitVec 4) (f2 : BitVec 4) (loadt : Bool) (loadl : Bool) (next : MicroAddr) (s : State) :
    Host.Outcome State Fault Refusal :=
  microcycle ⟨rsel, 5, bs, f1, f2, loadt, loadl, next⟩ s

/-- ALU.BUS_MINUS_1 (R128). -/
def execAluBusMinus1 (rsel : RegNum) (bs : BitVec 3) (f1 : BitVec 4) (f2 : BitVec 4) (loadt : Bool) (loadl : Bool) (next : MicroAddr) (s : State) :
    Host.Outcome State Fault Refusal :=
  microcycle ⟨rsel, 6, bs, f1, f2, loadt, loadl, next⟩ s

/-- ALU.BUS_PLUS_T (R129). -/
def execAluBusPlusT (rsel : RegNum) (bs : BitVec 3) (f1 : BitVec 4) (f2 : BitVec 4) (loadt : Bool) (loadl : Bool) (next : MicroAddr) (s : State) :
    Host.Outcome State Fault Refusal :=
  microcycle ⟨rsel, 7, bs, f1, f2, loadt, loadl, next⟩ s

/-- ALU.BUS_MINUS_T (R130). -/
def execAluBusMinusT (rsel : RegNum) (bs : BitVec 3) (f1 : BitVec 4) (f2 : BitVec 4) (loadt : Bool) (loadl : Bool) (next : MicroAddr) (s : State) :
    Host.Outcome State Fault Refusal :=
  microcycle ⟨rsel, 8, bs, f1, f2, loadt, loadl, next⟩ s

/-- ALU.BUS_MINUS_T_MINUS_1 (R131). -/
def execAluBusMinusTMinus1 (rsel : RegNum) (bs : BitVec 3) (f1 : BitVec 4) (f2 : BitVec 4) (loadt : Bool) (loadl : Bool) (next : MicroAddr) (s : State) :
    Host.Outcome State Fault Refusal :=
  microcycle ⟨rsel, 9, bs, f1, f2, loadt, loadl, next⟩ s

/-- ALU.BUS_PLUS_T_PLUS_1 (R132). -/
def execAluBusPlusTPlus1 (rsel : RegNum) (bs : BitVec 3) (f1 : BitVec 4) (f2 : BitVec 4) (loadt : Bool) (loadl : Bool) (next : MicroAddr) (s : State) :
    Host.Outcome State Fault Refusal :=
  microcycle ⟨rsel, 10, bs, f1, f2, loadt, loadl, next⟩ s

/-- ALU.BUS_PLUS_SKIP (R133). -/
def execAluBusPlusSkip (rsel : RegNum) (bs : BitVec 3) (f1 : BitVec 4) (f2 : BitVec 4) (loadt : Bool) (loadl : Bool) (next : MicroAddr) (s : State) :
    Host.Outcome State Fault Refusal :=
  microcycle ⟨rsel, 11, bs, f1, f2, loadt, loadl, next⟩ s

/-- ALU.BUS_DOT_T (R134). -/
def execAluBusDotT (rsel : RegNum) (bs : BitVec 3) (f1 : BitVec 4) (f2 : BitVec 4) (loadt : Bool) (loadl : Bool) (next : MicroAddr) (s : State) :
    Host.Outcome State Fault Refusal :=
  microcycle ⟨rsel, 12, bs, f1, f2, loadt, loadl, next⟩ s

/-- ALU.BUS_AND_NOT_T (R135). -/
def execAluBusAndNotT (rsel : RegNum) (bs : BitVec 3) (f1 : BitVec 4) (f2 : BitVec 4) (loadt : Bool) (loadl : Bool) (next : MicroAddr) (s : State) :
    Host.Outcome State Fault Refusal :=
  microcycle ⟨rsel, 13, bs, f1, f2, loadt, loadl, next⟩ s

/-- ALU.UNDEF14 (R136). -/
def execAluUndef14 (rsel : RegNum) (bs : BitVec 3) (f1 : BitVec 4) (f2 : BitVec 4) (loadt : Bool) (loadl : Bool) (next : MicroAddr) (s : State) :
    Host.Outcome State Fault Refusal :=
  microcycle ⟨rsel, 14, bs, f1, f2, loadt, loadl, next⟩ s

/-- ALU.UNDEF15 (R137). -/
def execAluUndef15 (rsel : RegNum) (bs : BitVec 3) (f1 : BitVec 4) (f2 : BitVec 4) (loadt : Bool) (loadl : Bool) (next : MicroAddr) (s : State) :
    Host.Outcome State Fault Refusal :=
  microcycle ⟨rsel, 15, bs, f1, f2, loadt, loadl, next⟩ s

end Sys2Proof.Machine
end

