-- ==== Sys2Proof/Machine/BusSourceRows.lean ====
section
/-! DEFINITION. The meanings of the eight bus-source rows (42_bus_source.md R180 to R187): each is the microcycle of the word in which the row fixes its own field and
the operands are the other fields. -/

namespace Sys2Proof.Machine

/-- BS.READR (R180). -/
def execBsReadr (rsel : RegNum) (aluf : BitVec 4) (f1 : BitVec 4) (f2 : BitVec 4) (loadt : Bool) (loadl : Bool) (next : MicroAddr) (s : State) :
    Host.Outcome State Fault Refusal :=
  microcycle ⟨rsel, aluf, 0, f1, f2, loadt, loadl, next⟩ s

/-- BS.LOADR (R181). -/
def execBsLoadr (rsel : RegNum) (aluf : BitVec 4) (f1 : BitVec 4) (f2 : BitVec 4) (loadt : Bool) (loadl : Bool) (next : MicroAddr) (s : State) :
    Host.Outcome State Fault Refusal :=
  microcycle ⟨rsel, aluf, 1, f1, f2, loadt, loadl, next⟩ s

/-- BS.NONE (R182). -/
def execBsNone (rsel : RegNum) (aluf : BitVec 4) (f1 : BitVec 4) (f2 : BitVec 4) (loadt : Bool) (loadl : Bool) (next : MicroAddr) (s : State) :
    Host.Outcome State Fault Refusal :=
  microcycle ⟨rsel, aluf, 2, f1, f2, loadt, loadl, next⟩ s

/-- BS.TASK_SLOT_3 (R183). -/
def execBsTaskSlot3 (rsel : RegNum) (aluf : BitVec 4) (f1 : BitVec 4) (f2 : BitVec 4) (loadt : Bool) (loadl : Bool) (next : MicroAddr) (s : State) :
    Host.Outcome State Fault Refusal :=
  microcycle ⟨rsel, aluf, 3, f1, f2, loadt, loadl, next⟩ s

/-- BS.TASK_SLOT_4 (R184). -/
def execBsTaskSlot4 (rsel : RegNum) (aluf : BitVec 4) (f1 : BitVec 4) (f2 : BitVec 4) (loadt : Bool) (loadl : Bool) (next : MicroAddr) (s : State) :
    Host.Outcome State Fault Refusal :=
  microcycle ⟨rsel, aluf, 4, f1, f2, loadt, loadl, next⟩ s

/-- BS.READMD (R185). -/
def execBsReadmd (rsel : RegNum) (aluf : BitVec 4) (f1 : BitVec 4) (f2 : BitVec 4) (loadt : Bool) (loadl : Bool) (next : MicroAddr) (s : State) :
    Host.Outcome State Fault Refusal :=
  microcycle ⟨rsel, aluf, 5, f1, f2, loadt, loadl, next⟩ s

/-- BS.MOUSE (R186). -/
def execBsMouse (rsel : RegNum) (aluf : BitVec 4) (f1 : BitVec 4) (f2 : BitVec 4) (loadt : Bool) (loadl : Bool) (next : MicroAddr) (s : State) :
    Host.Outcome State Fault Refusal :=
  microcycle ⟨rsel, aluf, 6, f1, f2, loadt, loadl, next⟩ s

/-- BS.DISP (R187). -/
def execBsDisp (rsel : RegNum) (aluf : BitVec 4) (f1 : BitVec 4) (f2 : BitVec 4) (loadt : Bool) (loadl : Bool) (next : MicroAddr) (s : State) :
    Host.Outcome State Fault Refusal :=
  microcycle ⟨rsel, aluf, 7, f1, f2, loadt, loadl, next⟩ s

end Sys2Proof.Machine
end

