-- ==== Sys2Proof/Machine/F1Rows.lean ====
section
/-! DEFINITION. The meanings of the sixteen F1 rows (43_f1.md R200 to R215): each is the microcycle of the word in which the row fixes its own field and
the operands are the other fields. -/

namespace Sys2Proof.Machine

/-- F1.NONE (R200). -/
def execF1None (rsel : RegNum) (aluf : BitVec 4) (bs : BitVec 3) (f2 : BitVec 4) (loadt : Bool) (loadl : Bool) (next : MicroAddr) (s : State) :
    Host.Outcome State Fault Refusal :=
  microcycle ⟨rsel, aluf, bs, 0, f2, loadt, loadl, next⟩ s

/-- F1.LOADMAR (R201). -/
def execF1Loadmar (rsel : RegNum) (aluf : BitVec 4) (bs : BitVec 3) (f2 : BitVec 4) (loadt : Bool) (loadl : Bool) (next : MicroAddr) (s : State) :
    Host.Outcome State Fault Refusal :=
  microcycle ⟨rsel, aluf, bs, 1, f2, loadt, loadl, next⟩ s

/-- F1.TASK (R202). -/
def execF1Task (rsel : RegNum) (aluf : BitVec 4) (bs : BitVec 3) (f2 : BitVec 4) (loadt : Bool) (loadl : Bool) (next : MicroAddr) (s : State) :
    Host.Outcome State Fault Refusal :=
  microcycle ⟨rsel, aluf, bs, 2, f2, loadt, loadl, next⟩ s

/-- F1.BLOCK (R203). -/
def execF1Block (rsel : RegNum) (aluf : BitVec 4) (bs : BitVec 3) (f2 : BitVec 4) (loadt : Bool) (loadl : Bool) (next : MicroAddr) (s : State) :
    Host.Outcome State Fault Refusal :=
  microcycle ⟨rsel, aluf, bs, 3, f2, loadt, loadl, next⟩ s

/-- F1.LLSH1 (R204). -/
def execF1Llsh1 (rsel : RegNum) (aluf : BitVec 4) (bs : BitVec 3) (f2 : BitVec 4) (loadt : Bool) (loadl : Bool) (next : MicroAddr) (s : State) :
    Host.Outcome State Fault Refusal :=
  microcycle ⟨rsel, aluf, bs, 4, f2, loadt, loadl, next⟩ s

/-- F1.LRSH1 (R205). -/
def execF1Lrsh1 (rsel : RegNum) (aluf : BitVec 4) (bs : BitVec 3) (f2 : BitVec 4) (loadt : Bool) (loadl : Bool) (next : MicroAddr) (s : State) :
    Host.Outcome State Fault Refusal :=
  microcycle ⟨rsel, aluf, bs, 5, f2, loadt, loadl, next⟩ s

/-- F1.LLCY8 (R206). -/
def execF1Llcy8 (rsel : RegNum) (aluf : BitVec 4) (bs : BitVec 3) (f2 : BitVec 4) (loadt : Bool) (loadl : Bool) (next : MicroAddr) (s : State) :
    Host.Outcome State Fault Refusal :=
  microcycle ⟨rsel, aluf, bs, 6, f2, loadt, loadl, next⟩ s

/-- F1.CONST (R207). -/
def execF1Const (rsel : RegNum) (aluf : BitVec 4) (bs : BitVec 3) (f2 : BitVec 4) (loadt : Bool) (loadl : Bool) (next : MicroAddr) (s : State) :
    Host.Outcome State Fault Refusal :=
  microcycle ⟨rsel, aluf, bs, 7, f2, loadt, loadl, next⟩ s

/-- F1.TASK_SLOT_0o10 (R208). -/
def execF1TaskSlot0o10 (rsel : RegNum) (aluf : BitVec 4) (bs : BitVec 3) (f2 : BitVec 4) (loadt : Bool) (loadl : Bool) (next : MicroAddr) (s : State) :
    Host.Outcome State Fault Refusal :=
  microcycle ⟨rsel, aluf, bs, 8, f2, loadt, loadl, next⟩ s

/-- F1.TASK_SLOT_0o11 (R209). -/
def execF1TaskSlot0o11 (rsel : RegNum) (aluf : BitVec 4) (bs : BitVec 3) (f2 : BitVec 4) (loadt : Bool) (loadl : Bool) (next : MicroAddr) (s : State) :
    Host.Outcome State Fault Refusal :=
  microcycle ⟨rsel, aluf, bs, 9, f2, loadt, loadl, next⟩ s

/-- F1.TASK_SLOT_0o12 (R210). -/
def execF1TaskSlot0o12 (rsel : RegNum) (aluf : BitVec 4) (bs : BitVec 3) (f2 : BitVec 4) (loadt : Bool) (loadl : Bool) (next : MicroAddr) (s : State) :
    Host.Outcome State Fault Refusal :=
  microcycle ⟨rsel, aluf, bs, 10, f2, loadt, loadl, next⟩ s

/-- F1.TASK_SLOT_0o13 (R211). -/
def execF1TaskSlot0o13 (rsel : RegNum) (aluf : BitVec 4) (bs : BitVec 3) (f2 : BitVec 4) (loadt : Bool) (loadl : Bool) (next : MicroAddr) (s : State) :
    Host.Outcome State Fault Refusal :=
  microcycle ⟨rsel, aluf, bs, 11, f2, loadt, loadl, next⟩ s

/-- F1.TASK_SLOT_0o14 (R212). -/
def execF1TaskSlot0o14 (rsel : RegNum) (aluf : BitVec 4) (bs : BitVec 3) (f2 : BitVec 4) (loadt : Bool) (loadl : Bool) (next : MicroAddr) (s : State) :
    Host.Outcome State Fault Refusal :=
  microcycle ⟨rsel, aluf, bs, 12, f2, loadt, loadl, next⟩ s

/-- F1.TASK_SLOT_0o15 (R213). -/
def execF1TaskSlot0o15 (rsel : RegNum) (aluf : BitVec 4) (bs : BitVec 3) (f2 : BitVec 4) (loadt : Bool) (loadl : Bool) (next : MicroAddr) (s : State) :
    Host.Outcome State Fault Refusal :=
  microcycle ⟨rsel, aluf, bs, 13, f2, loadt, loadl, next⟩ s

/-- F1.TASK_SLOT_0o16 (R214). -/
def execF1TaskSlot0o16 (rsel : RegNum) (aluf : BitVec 4) (bs : BitVec 3) (f2 : BitVec 4) (loadt : Bool) (loadl : Bool) (next : MicroAddr) (s : State) :
    Host.Outcome State Fault Refusal :=
  microcycle ⟨rsel, aluf, bs, 14, f2, loadt, loadl, next⟩ s

/-- F1.TASK_SLOT_0o17 (R215). -/
def execF1TaskSlot0o17 (rsel : RegNum) (aluf : BitVec 4) (bs : BitVec 3) (f2 : BitVec 4) (loadt : Bool) (loadl : Bool) (next : MicroAddr) (s : State) :
    Host.Outcome State Fault Refusal :=
  microcycle ⟨rsel, aluf, bs, 15, f2, loadt, loadl, next⟩ s

end Sys2Proof.Machine
end

