-- ==== Sys2Proof/Machine/F2Rows.lean ====
section
/-! DEFINITION. The meanings of the sixteen F2 rows (44_f2.md R220 to R235): each is the microcycle of the word in which the row fixes its own field and
the operands are the other fields. -/

namespace Sys2Proof.Machine

/-- F2.NONE (R220). -/
def execF2None (rsel : RegNum) (aluf : BitVec 4) (bs : BitVec 3) (f1 : BitVec 4) (loadt : Bool) (loadl : Bool) (next : MicroAddr) (s : State) :
    Host.Outcome State Fault Refusal :=
  microcycle ⟨rsel, aluf, bs, f1, 0, loadt, loadl, next⟩ s

/-- F2.BUSEQ0 (R221). -/
def execF2Buseq0 (rsel : RegNum) (aluf : BitVec 4) (bs : BitVec 3) (f1 : BitVec 4) (loadt : Bool) (loadl : Bool) (next : MicroAddr) (s : State) :
    Host.Outcome State Fault Refusal :=
  microcycle ⟨rsel, aluf, bs, f1, 1, loadt, loadl, next⟩ s

/-- F2.SHLT0 (R222). -/
def execF2Shlt0 (rsel : RegNum) (aluf : BitVec 4) (bs : BitVec 3) (f1 : BitVec 4) (loadt : Bool) (loadl : Bool) (next : MicroAddr) (s : State) :
    Host.Outcome State Fault Refusal :=
  microcycle ⟨rsel, aluf, bs, f1, 2, loadt, loadl, next⟩ s

/-- F2.SHEQ0 (R223). -/
def execF2Sheq0 (rsel : RegNum) (aluf : BitVec 4) (bs : BitVec 3) (f1 : BitVec 4) (loadt : Bool) (loadl : Bool) (next : MicroAddr) (s : State) :
    Host.Outcome State Fault Refusal :=
  microcycle ⟨rsel, aluf, bs, f1, 3, loadt, loadl, next⟩ s

/-- F2.BUS (R224). -/
def execF2Bus (rsel : RegNum) (aluf : BitVec 4) (bs : BitVec 3) (f1 : BitVec 4) (loadt : Bool) (loadl : Bool) (next : MicroAddr) (s : State) :
    Host.Outcome State Fault Refusal :=
  microcycle ⟨rsel, aluf, bs, f1, 4, loadt, loadl, next⟩ s

/-- F2.ALUCY (R225). -/
def execF2Alucy (rsel : RegNum) (aluf : BitVec 4) (bs : BitVec 3) (f1 : BitVec 4) (loadt : Bool) (loadl : Bool) (next : MicroAddr) (s : State) :
    Host.Outcome State Fault Refusal :=
  microcycle ⟨rsel, aluf, bs, f1, 5, loadt, loadl, next⟩ s

/-- F2.LOADMD (R226). -/
def execF2Loadmd (rsel : RegNum) (aluf : BitVec 4) (bs : BitVec 3) (f1 : BitVec 4) (loadt : Bool) (loadl : Bool) (next : MicroAddr) (s : State) :
    Host.Outcome State Fault Refusal :=
  microcycle ⟨rsel, aluf, bs, f1, 6, loadt, loadl, next⟩ s

/-- F2.CONST (R227). -/
def execF2Const (rsel : RegNum) (aluf : BitVec 4) (bs : BitVec 3) (f1 : BitVec 4) (loadt : Bool) (loadl : Bool) (next : MicroAddr) (s : State) :
    Host.Outcome State Fault Refusal :=
  microcycle ⟨rsel, aluf, bs, f1, 7, loadt, loadl, next⟩ s

/-- F2.TASK_SLOT_0o10 (R228). -/
def execF2TaskSlot0o10 (rsel : RegNum) (aluf : BitVec 4) (bs : BitVec 3) (f1 : BitVec 4) (loadt : Bool) (loadl : Bool) (next : MicroAddr) (s : State) :
    Host.Outcome State Fault Refusal :=
  microcycle ⟨rsel, aluf, bs, f1, 8, loadt, loadl, next⟩ s

/-- F2.TASK_SLOT_0o11 (R229). -/
def execF2TaskSlot0o11 (rsel : RegNum) (aluf : BitVec 4) (bs : BitVec 3) (f1 : BitVec 4) (loadt : Bool) (loadl : Bool) (next : MicroAddr) (s : State) :
    Host.Outcome State Fault Refusal :=
  microcycle ⟨rsel, aluf, bs, f1, 9, loadt, loadl, next⟩ s

/-- F2.TASK_SLOT_0o12 (R230). -/
def execF2TaskSlot0o12 (rsel : RegNum) (aluf : BitVec 4) (bs : BitVec 3) (f1 : BitVec 4) (loadt : Bool) (loadl : Bool) (next : MicroAddr) (s : State) :
    Host.Outcome State Fault Refusal :=
  microcycle ⟨rsel, aluf, bs, f1, 10, loadt, loadl, next⟩ s

/-- F2.TASK_SLOT_0o13 (R231). -/
def execF2TaskSlot0o13 (rsel : RegNum) (aluf : BitVec 4) (bs : BitVec 3) (f1 : BitVec 4) (loadt : Bool) (loadl : Bool) (next : MicroAddr) (s : State) :
    Host.Outcome State Fault Refusal :=
  microcycle ⟨rsel, aluf, bs, f1, 11, loadt, loadl, next⟩ s

/-- F2.TASK_SLOT_0o14 (R232). -/
def execF2TaskSlot0o14 (rsel : RegNum) (aluf : BitVec 4) (bs : BitVec 3) (f1 : BitVec 4) (loadt : Bool) (loadl : Bool) (next : MicroAddr) (s : State) :
    Host.Outcome State Fault Refusal :=
  microcycle ⟨rsel, aluf, bs, f1, 12, loadt, loadl, next⟩ s

/-- F2.TASK_SLOT_0o15 (R233). -/
def execF2TaskSlot0o15 (rsel : RegNum) (aluf : BitVec 4) (bs : BitVec 3) (f1 : BitVec 4) (loadt : Bool) (loadl : Bool) (next : MicroAddr) (s : State) :
    Host.Outcome State Fault Refusal :=
  microcycle ⟨rsel, aluf, bs, f1, 13, loadt, loadl, next⟩ s

/-- F2.TASK_SLOT_0o16 (R234). -/
def execF2TaskSlot0o16 (rsel : RegNum) (aluf : BitVec 4) (bs : BitVec 3) (f1 : BitVec 4) (loadt : Bool) (loadl : Bool) (next : MicroAddr) (s : State) :
    Host.Outcome State Fault Refusal :=
  microcycle ⟨rsel, aluf, bs, f1, 14, loadt, loadl, next⟩ s

/-- F2.TASK_SLOT_0o17 (R235). -/
def execF2TaskSlot0o17 (rsel : RegNum) (aluf : BitVec 4) (bs : BitVec 3) (f1 : BitVec 4) (loadt : Bool) (loadl : Bool) (next : MicroAddr) (s : State) :
    Host.Outcome State Fault Refusal :=
  microcycle ⟨rsel, aluf, bs, f1, 15, loadt, loadl, next⟩ s

end Sys2Proof.Machine
end

