-- ==== Sys2Proof/Machine/FlagRows.lean ====
section
/-! DEFINITION. The meanings of the two load-flag rows (41_registers_and_bus.md R164 to R167): each is the microcycle of the word in which the row fixes its own field and
the operands are the other fields. -/

namespace Sys2Proof.Machine

/-- LOADT (R167). -/
def execLoadT (rsel : RegNum) (aluf : BitVec 4) (bs : BitVec 3) (f1 : BitVec 4) (f2 : BitVec 4) (loadl : Bool) (next : MicroAddr) (s : State) :
    Host.Outcome State Fault Refusal :=
  microcycle ⟨rsel, aluf, bs, f1, f2, true, loadl, next⟩ s

/-- LOADL (R164). -/
def execLoadL (rsel : RegNum) (aluf : BitVec 4) (bs : BitVec 3) (f1 : BitVec 4) (f2 : BitVec 4) (loadt : Bool) (next : MicroAddr) (s : State) :
    Host.Outcome State Fault Refusal :=
  microcycle ⟨rsel, aluf, bs, f1, f2, loadt, true, next⟩ s

end Sys2Proof.Machine
end

