-- ==== Sys2Proof/Machine/Dispatch.lean ====
section
/-! DEFINITION. The dispatch of instructions to their meanings: one arm per constructor. -/

namespace Sys2Proof.Machine

def exec (i : Instr) (s : State) : Host.Outcome State Fault Refusal :=
  match i with
  | .aluBus rsel bs f1 f2 loadt loadl next => Sys2Proof.Machine.execAluBus rsel bs f1 f2 loadt loadl next s
  | .aluT rsel bs f1 f2 loadt loadl next => Sys2Proof.Machine.execAluT rsel bs f1 f2 loadt loadl next s
  | .aluBusOrT rsel bs f1 f2 loadt loadl next => Sys2Proof.Machine.execAluBusOrT rsel bs f1 f2 loadt loadl next s
  | .aluBusAndT rsel bs f1 f2 loadt loadl next => Sys2Proof.Machine.execAluBusAndT rsel bs f1 f2 loadt loadl next s
  | .aluBusXorT rsel bs f1 f2 loadt loadl next => Sys2Proof.Machine.execAluBusXorT rsel bs f1 f2 loadt loadl next s
  | .aluBusPlus1 rsel bs f1 f2 loadt loadl next => Sys2Proof.Machine.execAluBusPlus1 rsel bs f1 f2 loadt loadl next s
  | .aluBusMinus1 rsel bs f1 f2 loadt loadl next => Sys2Proof.Machine.execAluBusMinus1 rsel bs f1 f2 loadt loadl next s
  | .aluBusPlusT rsel bs f1 f2 loadt loadl next => Sys2Proof.Machine.execAluBusPlusT rsel bs f1 f2 loadt loadl next s
  | .aluBusMinusT rsel bs f1 f2 loadt loadl next => Sys2Proof.Machine.execAluBusMinusT rsel bs f1 f2 loadt loadl next s
  | .aluBusMinusTMinus1 rsel bs f1 f2 loadt loadl next => Sys2Proof.Machine.execAluBusMinusTMinus1 rsel bs f1 f2 loadt loadl next s
  | .aluBusPlusTPlus1 rsel bs f1 f2 loadt loadl next => Sys2Proof.Machine.execAluBusPlusTPlus1 rsel bs f1 f2 loadt loadl next s
  | .aluBusPlusSkip rsel bs f1 f2 loadt loadl next => Sys2Proof.Machine.execAluBusPlusSkip rsel bs f1 f2 loadt loadl next s
  | .aluBusDotT rsel bs f1 f2 loadt loadl next => Sys2Proof.Machine.execAluBusDotT rsel bs f1 f2 loadt loadl next s
  | .aluBusAndNotT rsel bs f1 f2 loadt loadl next => Sys2Proof.Machine.execAluBusAndNotT rsel bs f1 f2 loadt loadl next s
  | .aluUndef14 rsel bs f1 f2 loadt loadl next => Sys2Proof.Machine.execAluUndef14 rsel bs f1 f2 loadt loadl next s
  | .aluUndef15 rsel bs f1 f2 loadt loadl next => Sys2Proof.Machine.execAluUndef15 rsel bs f1 f2 loadt loadl next s
  | .bsReadr rsel aluf f1 f2 loadt loadl next => Sys2Proof.Machine.execBsReadr rsel aluf f1 f2 loadt loadl next s
  | .bsLoadr rsel aluf f1 f2 loadt loadl next => Sys2Proof.Machine.execBsLoadr rsel aluf f1 f2 loadt loadl next s
  | .bsNone rsel aluf f1 f2 loadt loadl next => Sys2Proof.Machine.execBsNone rsel aluf f1 f2 loadt loadl next s
  | .bsTaskSlot3 rsel aluf f1 f2 loadt loadl next => Sys2Proof.Machine.execBsTaskSlot3 rsel aluf f1 f2 loadt loadl next s
  | .bsTaskSlot4 rsel aluf f1 f2 loadt loadl next => Sys2Proof.Machine.execBsTaskSlot4 rsel aluf f1 f2 loadt loadl next s
  | .bsReadmd rsel aluf f1 f2 loadt loadl next => Sys2Proof.Machine.execBsReadmd rsel aluf f1 f2 loadt loadl next s
  | .bsMouse rsel aluf f1 f2 loadt loadl next => Sys2Proof.Machine.execBsMouse rsel aluf f1 f2 loadt loadl next s
  | .bsDisp rsel aluf f1 f2 loadt loadl next => Sys2Proof.Machine.execBsDisp rsel aluf f1 f2 loadt loadl next s
  | .f1None rsel aluf bs f2 loadt loadl next => Sys2Proof.Machine.execF1None rsel aluf bs f2 loadt loadl next s
  | .f1Loadmar rsel aluf bs f2 loadt loadl next => Sys2Proof.Machine.execF1Loadmar rsel aluf bs f2 loadt loadl next s
  | .f1Task rsel aluf bs f2 loadt loadl next => Sys2Proof.Machine.execF1Task rsel aluf bs f2 loadt loadl next s
  | .f1Block rsel aluf bs f2 loadt loadl next => Sys2Proof.Machine.execF1Block rsel aluf bs f2 loadt loadl next s
  | .f1Llsh1 rsel aluf bs f2 loadt loadl next => Sys2Proof.Machine.execF1Llsh1 rsel aluf bs f2 loadt loadl next s
  | .f1Lrsh1 rsel aluf bs f2 loadt loadl next => Sys2Proof.Machine.execF1Lrsh1 rsel aluf bs f2 loadt loadl next s
  | .f1Llcy8 rsel aluf bs f2 loadt loadl next => Sys2Proof.Machine.execF1Llcy8 rsel aluf bs f2 loadt loadl next s
  | .f1Const rsel aluf bs f2 loadt loadl next => Sys2Proof.Machine.execF1Const rsel aluf bs f2 loadt loadl next s
  | .f1TaskSlot0o10 rsel aluf bs f2 loadt loadl next => Sys2Proof.Machine.execF1TaskSlot0o10 rsel aluf bs f2 loadt loadl next s
  | .f1TaskSlot0o11 rsel aluf bs f2 loadt loadl next => Sys2Proof.Machine.execF1TaskSlot0o11 rsel aluf bs f2 loadt loadl next s
  | .f1TaskSlot0o12 rsel aluf bs f2 loadt loadl next => Sys2Proof.Machine.execF1TaskSlot0o12 rsel aluf bs f2 loadt loadl next s
  | .f1TaskSlot0o13 rsel aluf bs f2 loadt loadl next => Sys2Proof.Machine.execF1TaskSlot0o13 rsel aluf bs f2 loadt loadl next s
  | .f1TaskSlot0o14 rsel aluf bs f2 loadt loadl next => Sys2Proof.Machine.execF1TaskSlot0o14 rsel aluf bs f2 loadt loadl next s
  | .f1TaskSlot0o15 rsel aluf bs f2 loadt loadl next => Sys2Proof.Machine.execF1TaskSlot0o15 rsel aluf bs f2 loadt loadl next s
  | .f1TaskSlot0o16 rsel aluf bs f2 loadt loadl next => Sys2Proof.Machine.execF1TaskSlot0o16 rsel aluf bs f2 loadt loadl next s
  | .f1TaskSlot0o17 rsel aluf bs f2 loadt loadl next => Sys2Proof.Machine.execF1TaskSlot0o17 rsel aluf bs f2 loadt loadl next s
  | .f2None rsel aluf bs f1 loadt loadl next => Sys2Proof.Machine.execF2None rsel aluf bs f1 loadt loadl next s
  | .f2Buseq0 rsel aluf bs f1 loadt loadl next => Sys2Proof.Machine.execF2Buseq0 rsel aluf bs f1 loadt loadl next s
  | .f2Shlt0 rsel aluf bs f1 loadt loadl next => Sys2Proof.Machine.execF2Shlt0 rsel aluf bs f1 loadt loadl next s
  | .f2Sheq0 rsel aluf bs f1 loadt loadl next => Sys2Proof.Machine.execF2Sheq0 rsel aluf bs f1 loadt loadl next s
  | .f2Bus rsel aluf bs f1 loadt loadl next => Sys2Proof.Machine.execF2Bus rsel aluf bs f1 loadt loadl next s
  | .f2Alucy rsel aluf bs f1 loadt loadl next => Sys2Proof.Machine.execF2Alucy rsel aluf bs f1 loadt loadl next s
  | .f2Loadmd rsel aluf bs f1 loadt loadl next => Sys2Proof.Machine.execF2Loadmd rsel aluf bs f1 loadt loadl next s
  | .f2Const rsel aluf bs f1 loadt loadl next => Sys2Proof.Machine.execF2Const rsel aluf bs f1 loadt loadl next s
  | .f2TaskSlot0o10 rsel aluf bs f1 loadt loadl next => Sys2Proof.Machine.execF2TaskSlot0o10 rsel aluf bs f1 loadt loadl next s
  | .f2TaskSlot0o11 rsel aluf bs f1 loadt loadl next => Sys2Proof.Machine.execF2TaskSlot0o11 rsel aluf bs f1 loadt loadl next s
  | .f2TaskSlot0o12 rsel aluf bs f1 loadt loadl next => Sys2Proof.Machine.execF2TaskSlot0o12 rsel aluf bs f1 loadt loadl next s
  | .f2TaskSlot0o13 rsel aluf bs f1 loadt loadl next => Sys2Proof.Machine.execF2TaskSlot0o13 rsel aluf bs f1 loadt loadl next s
  | .f2TaskSlot0o14 rsel aluf bs f1 loadt loadl next => Sys2Proof.Machine.execF2TaskSlot0o14 rsel aluf bs f1 loadt loadl next s
  | .f2TaskSlot0o15 rsel aluf bs f1 loadt loadl next => Sys2Proof.Machine.execF2TaskSlot0o15 rsel aluf bs f1 loadt loadl next s
  | .f2TaskSlot0o16 rsel aluf bs f1 loadt loadl next => Sys2Proof.Machine.execF2TaskSlot0o16 rsel aluf bs f1 loadt loadl next s
  | .f2TaskSlot0o17 rsel aluf bs f1 loadt loadl next => Sys2Proof.Machine.execF2TaskSlot0o17 rsel aluf bs f1 loadt loadl next s
  | .loadT rsel aluf bs f1 f2 loadl next => Sys2Proof.Machine.execLoadT rsel aluf bs f1 f2 loadl next s
  | .loadL rsel aluf bs f1 f2 loadt next => Sys2Proof.Machine.execLoadL rsel aluf bs f1 f2 loadt next s

end Sys2Proof.Machine
end

