-- ==== Sys2Proof/Machine/Fetch.lean ====
section
/-! DEFINITION. Fetching a microword, and loading one where the next fetch finds it. -/

namespace Sys2Proof.Machine

/-- The address of the current task's next fetch (R31, R247). -/
def fetchAddr (s : State) : Nat := s.page * pageSize + s.mpc.toNat

/-- `UFetch(a)`: the logical word, `none` where nothing has written it (R52). -/
def uFetch (s : State) (a : Nat) : Option UWord := (s.store.read a).map (fun w => w ^^^ s.cfg.invMask)

/-- The microword of the next cycle (R247). -/
def fetch (s : State) : Option UWord := uFetch s (fetchAddr s)

/-- The state with a logical word put at a fetch address in stored form, as loading an image from outside does (R51, R303). -/
def loadWord (s : State) (a : Nat) (w : UWord) : State := { s with store := s.store.write a (w ^^^ s.cfg.invMask) }

end Sys2Proof.Machine
end

