-- ==== Sys2Proof/Machine/HostLoop.lean ====
section
/-! DEFINITION. What happens to the core from outside: events between two cycles, the resets, and the cells the host's loop
saves and restores (R241, R242, R280, R300, R302). -/

namespace Sys2Proof.Machine

/-- Cold reset: the state of R300 under a well-formed configuration, else a refusal (R4). -/
def coldReset (c : Config) : Host.Outcome State Fault Refusal :=
  if c.wf then .next (State.cold c) else .refused .illFormedConfig

/-- The state after a soft reset (R302): start addresses again, and task 0 at once. -/
def softReset (s : State) : State :=
  { s with
    taskMpc := bootMpcs s.cfg
    taskPage := bootPages s.cfg
    reqTask := 0
    confTask := 0
    task := 0
    mpc := bootMpc s.cfg 0
    page := bootPage s.cfg 0 }

/-- What a soft reset returns: the requested-next-task as it was before anything changed (R302). -/
def softResetAnswer (s : State) : Task := s.reqTask

/-- One event between two cycles (R72, R280, R302). -/
def applyEvent (s : State) : Event → State
  | .wake k => wake s k
  | .unwake k => unwake s k
  | .busWrite a v =>
    match bankRegOffset s.cfg a with
    | some off => bankRegWrite s off v
    | none => s
  | .busRead a =>
    match bankRegOffset s.cfg a with
    | some off => logCall s (.busAnswer a (bankRegRead s off))
    | none => s
  | .softReset => logCall (softReset s) (.softResetAnswer (softResetAnswer s))

/-- The events of an iteration, in order. -/
def applyEvents : List Event → State → State
  | [], s => s
  | e :: rest, s => applyEvents rest (applyEvent s e)

/-- The end of an iteration: one peripheral tick counted (R243), its inputs used up, then the events before the next one
(notes/assumptions 18). -/
def endIteration (s : State) : State :=
  applyEvents s.input.events { s with ticks := s.ticks + 1, inputs := s.inputs.tail }

/-- The save of the current task's address when the host's loop exits (R242). -/
def saveTask (s : State) : State :=
  { s with taskMpc := set16 s.taskMpc s.task s.mpc, taskPage := set16 s.taskPage s.task s.page }

/-- The restore from the same cells when a later run starts (R242). -/
def loadTask (s : State) : State := { s with mpc := at16 s.taskMpc s.task, page := at16 s.taskPage s.task }

end Sys2Proof.Machine
end

