-- ==== Sys2Proof/Machine/Step.lean ====
section
/-! DEFINITION. One step: one iteration of the host's loop, which fetches, decodes and executes one microword of the current
task (R240, R246), and the host's loop itself (R241, R259). -/

namespace Sys2Proof.Machine

/-- The end of an iteration after what exec answered. -/
def finish : Host.Outcome State Fault Refusal → Host.Outcome State Fault Refusal
  | .next t => .next (endIteration t)
  | .fault e => .fault e
  | .refused r => .refused r

/-- One step. A halted core takes no further cycle: its state stays (R42, notes/assumptions 16). -/
def step (s : State) : Host.Outcome State Fault Refusal :=
  match s.run with
  | .halted _ => .next s
  | .running =>
    match fetch s with
    | none => .fault (.unwrittenFetch (fetchAddr s))
    | some w => finish (exec (decode w) s)

/-- `s` with an instruction's bits stored where the next step fetches: a program word loaded from outside
(notes/assumptions 5). -/
def State.withFetchWord (s : State) (nbits w : Nat) : State :=
  loadWord s (fetchAddr s) (BitVec.ofNat 32 (w % 2 ^ nbits))

/-- The host's loop with a cycle budget (R241, R259): budget and leave flag are looked at once per iteration, at its top, a
halted core ends it, and an end without a halt is followed by the save (R242). An exit by the leave flag uses up no inputs, so
a later run finds the flag as it is (DESIGN CHOICE, notes/assumptions 23). -/
def hostRun : Nat → State → Host.Outcome State Fault Refusal
  | 0, s =>
    match s.run with
    | .halted _ => .next s
    | .running => .next (saveTask s)
  | n + 1, s =>
    match s.run with
    | .halted _ => .next s
    | .running =>
      if s.input.leave then .next (saveTask s)
      else
        match step s with
        | .next t => hostRun n t
        | .fault e => .fault e
        | .refused r => .refused r

end Sys2Proof.Machine
end

