-- ==== Sys2Proof/Safety.lean ====
section
/-! DEFINITION. The terms that statements use: the well-formed states, and the words that run to their end in a state. -/

namespace Sys2Proof.Machine

/-- Every field keeps the range the spec gives it: the configuration is well formed (R4), page numbers are below 2^PAGE_BITS
(R31, R32), S-bank selectors are below S_BANKS (R34), there are S_BANKS banks of S registers (R21), and the store has its
canonical form. -/
structure State.WellFormed (s : State) : Prop where
  cfg      : s.cfg.wf = true
  page     : s.page < 2 ^ s.cfg.pageBits
  taskPage : ∀ k : Task, at16 s.taskPage k < 2 ^ s.cfg.pageBits
  sbank    : ∀ k : Task, at16 s.sbank k < s.cfg.sBanks
  sregs    : s.sregs.length = s.cfg.sBanks
  store    : Memory.wf s.store = true

/-- The pending microcode-RAM read of a state, if there is one, can be performed: it does not select the ROM, and its word is
out of range or written (R63, R67). -/
def readReady (s : State) : Bool :=
  !s.rdPend || (!ramRomsel s.rdAddr &&
    match bankInRange s.cfg (ramBank s.rdAddr) with
    | none => true
    | some b => (s.store.read (ramAddr s.cfg b (ramWord s.rdAddr))).isSome)

/-- A bank number that is below `n` whatever the state: a constant, or a value masked with one. -/
def valBounded (n : Nat) : Val → Bool
  | .lit v => decide (v.toNat < n)
  | .and _ (.lit m) => decide (m.toNat < n)
  | _ => false

/-- The values an expression reads are available in the phase, its S banks are below `n` (R158, R245). -/
def valReady (ph : Phase) (n : Nat) : Val → Bool
  | .alu => ph == .late
  | .aluc0 => ph == .late
  | .shifter => ph == .late
  | .readR i => valReady ph n i
  | .readS b i => valBounded n b && valReady ph n b && valReady ph n i
  | .not a => valReady ph n a
  | .and a b => valReady ph n a && valReady ph n b
  | .or a b => valReady ph n a && valReady ph n b
  | .xor a b => valReady ph n a && valReady ph n b
  | .add a b => valReady ph n a && valReady ph n b
  | .shl a _ => valReady ph n a
  | .shr a _ => valReady ph n a
  | .cond k a b => valReady ph n k && valReady ph n a && valReady ph n b
  | _ => true

/-- The act uses its port as the table of R245 allows, whatever the state. The scheduler's arbitration, which may find an
empty mask, and an early clearing of a wakeup bit are left out: this is a sufficient condition. -/
def actReady (ph : Phase) (fam : Family) (c : Config) (task : Task) : Act → Bool
  | .andBus v => ph == .early && valReady ph c.sBanks v
  | .setRsel v => ph == .early && fam == .f2 && valReady ph c.sBanks v
  | .orNext v => ph == .late && valReady ph c.sBanks v
  | .writeR i v => valReady ph c.sBanks i && valReady ph c.sBanks v
  | .writeS b i v => valBounded c.sBanks b && valReady ph c.sBanks b && valReady ph c.sBanks i && valReady ph c.sBanks v
  | .setSBank k b => valReady ph c.sBanks k && valBounded c.sBanks b && valReady ph c.sBanks b
  | .requestURamWrite => ph == .late && fam == .f1 && ramRelated c task
  | .requestURamRead => ph == .late && fam == .f1 && ramRelated c task
  | .setPage p => ph == .late && valReady ph c.sBanks p
  | .setMagic => fam == .f2 && task == 0
  | .loadMar i v => valReady ph c.sBanks i && valReady ph c.sBanks v
  | .writeMem v => valReady ph c.sBanks v
  | .andReadMem => ph == .early
  | .ask (.marStall i) => valReady ph c.sBanks i
  | .ask _ => true
  | .device _ v => valReady ph c.sBanks v
  | .wake k => valReady ph c.sBanks k
  | .unwake k => ph == .late && valReady ph c.sBanks k
  | .arbitrate => false
  | .onlyIf k a => valReady ph c.sBanks k && actReady ph fam c task a
  | .outside => false

/-- A dispatch that cannot stop: a default entry, an empty one, or an installed operation that stays inside its ports. An
unfilled task-specific slot is fatal (R271); that explicit empty entries fill a slot is the model's choice
(notes/assumptions 22). -/
def slotReady (s : State) (ph : Phase) (fam : Family) (code : Nat) : Bool :=
  match resolve s.cfg ph s.task fam code with
  | .installed acts => acts.all (actReady ph fam s.cfg s.task)
  | .absent => true
  | .byDefault => true
  | .unset => false

/-- The F2 field of a word cannot stop the cycle. -/
def f2Ready (d : Microword) (s : State) : Bool :=
  d.f2 == s.cfg.f2Const || (slotReady s .early .f2 d.f2.toNat && slotReady s .late .f2 d.f2.toNat)

/-- The BS field of a word cannot stop the cycle. -/
def bsReady (d : Microword) (s : State) : Bool :=
  constSel s.cfg d || (slotReady s .early .bs d.bs.toNat && slotReady s .late .bs d.bs.toNat)

/-- The F1 field of a word cannot stop the cycle; a TASK word finds a wakeup bit (R272). -/
def f1Ready (d : Microword) (s : State) : Bool :=
  d.f1 == s.cfg.f1Const ||
    (slotReady s .early .f1 d.f1.toNat && slotReady s .late .f1 d.f1.toNat && (d.f1 != 2 || s.wakeup != 0))

/-- The core is running, the word does not stall, a pending read can be performed, and no field of the word can stop the
cycle: the conditions on a state and a word under which the word executes normally. -/
def ready (d : Microword) (s : State) : Bool :=
  s.run == .running && !stalled d s && readReady s && f2Ready d s && bsReady d s && f1Ready d s

/-- The early phase up to its F1 step: the pending read, the constant, early F2, early BS (R249). -/
def beforeEarlyF1 (d : Microword) (s : State) : Except Stop Cyc := do
  let c0 ← readPerform (startCycle d s)
  let c1 ← runF2 .early (constantPath c0)
  runBs .early c1

/-- No initializer installed an operation in a slot of the current task, in either phase: its default entry stands (R244). -/
def plainSlot (s : State) (fam : Family) (code : Nat) : Bool :=
  (lookupSlot s.cfg.table { phase := .early, task := s.task, family := fam, code := code }).isNone &&
    (lookupSlot s.cfg.table { phase := .late, task := s.task, family := fam, code := code }).isNone

/-- Every field of the word that is dispatched has its default entry for the current task. -/
def plain (d : Microword) (s : State) : Bool :=
  (d.f2 == s.cfg.f2Const || plainSlot s .f2 d.f2.toNat) &&
    (constSel s.cfg d || plainSlot s .bs d.bs.toNat) &&
    (d.f1 == s.cfg.f1Const || plainSlot s .f1 d.f1.toNat)

/-- What a pending microcode-RAM read contributes to the bus: all ones where there is none (R63, R67). -/
def readValue (s : State) : Word :=
  if s.rdPend then
    match uRamRead s (ramBank s.rdAddr) (ramWord s.rdAddr) (ramHalf s.rdAddr) with
    | .ok v => v
    | .error _ => 0xFFFF
  else 0xFFFF

/-- What the default operation of a BS value drives onto the bus: all ones where it drives nothing (R180 to R187). -/
def sourceValue (d : Microword) (s : State) : Word :=
  if d.bs = 0 then readR s d.rsel
  else if d.bs = 1 then s.cfg.loadrBus
  else if d.bs = 5 then s.input.readMem
  else if d.bs = 6 then s.input.mouse
  else if d.bs = 7 then s.input.disp
  else 0xFFFF

/-- The bus of a word whose fields have their default entries: the pending read, and the constant or the bus source
(R151, R153, R154). -/
def plainBus (d : Microword) (s : State) : Word :=
  readValue s &&& (if constSel s.cfg d then constWord s.cfg (constIndex d.rsel d.bs) else sourceValue d s)

/-- The branch bits of a word whose F2 field has its default entry (R220 to R227). -/
def plainBits (d : Microword) (s : State) : MicroAddr :=
  if d.f2 = s.cfg.f2Const then 0
  else if d.f2 = 1 then (if plainBus d s = 0 then 1 else 0)
  else if d.f2 = 2 then (if (shifterOut d.f1 s.l s.t false).getLsbD 15 then 1 else 0)
  else if d.f2 = 3 then (if shifterOut d.f1 s.l s.t false = 0 then 1 else 0)
  else if d.f2 = 4 then (plainBus d s).extractLsb' 0 10
  else if d.f2 = 5 then (if s.laluc0 then 1 else 0)
  else 0

/-- The calls of a word's early phase, where its fields have their default entries (R185 to R187). -/
def plainEarlyCalls (d : Microword) (s : State) : List Call :=
  if constSel s.cfg d then []
  else if d.bs = 5 then [.readMem]
  else if d.bs = 6 then [.mouse]
  else if d.bs = 7 then [.disp]
  else []

/-- The calls of a word's late phase, newest first, where its fields have their default entries (R201, R226). -/
def plainLateCalls (d : Microword) (s : State) (alu : Word) : List Call :=
  (if d.f2 = 6 ∧ d.f2 ≠ s.cfg.f2Const then [.writeMem (plainBus d s)] else []) ++
    (if d.f1 = 1 ∧ d.f1 ≠ s.cfg.f1Const then [.loadMar d.rsel alu] else [])

/-- The S registers after an L load (R166). -/
def afterLoadS (d : Microword) (s : State) (alu : Word) : List (Vector Word 32) :=
  if d.loadl && ramRelated s.cfg s.task then (writeS s (at16 s.sbank s.task) 0 alu).sregs else s.sregs

/-- The state after a word whose fields have their default entries, each field by its own rule and not by the order of the
cycle: the statement PlainWordsRefineTheirRules says that the microcycle gives exactly this state. -/
def plainNext (d : Microword) (s : State) : State :=
  let b := plainBus d s
  let o := aluFn s.cfg.subCarry d.aluf b s.t s.input.skip
  switchEvaluation
    { s with
      mpc := d.next ||| plainBits d s
      r := if d.bs = 1 ∧ constSel s.cfg d = false
        then set32 s.r d.rsel (quirkValue s.cfg d.rsel (shifterOut d.f1 s.l s.t false)) else s.r
      sregs := afterLoadS d s o.alu
      l := if d.loadl then o.alu else s.l
      t := if d.loadt then tSource o b else s.t
      m := if d.loadl && ramRelated s.cfg s.task then o.alu else s.m
      laluc0 := if d.loadl then latchedCarry o else s.laluc0
      wrPend := false
      rdPend := false
      store := (writeBack s o.alu).store
      reqTask := if d.f1 = 2 ∧ d.f1 ≠ s.cfg.f1Const then (highestWakeup s.wakeup).getD s.reqTask else s.reqTask
      calls := plainLateCalls d s o.alu ++ (plainEarlyCalls d s ++ s.calls) }

/-- What a word leaves in the latches L, LALUC0, T and M, from the state `s` before it to the state `u` after it: loaded as
its flags say, else unchanged (R164 to R167). -/
structure Latches (loadt loadl : Bool) (s u : State) (alu : Word) (carry : Bool) (tval : Word) : Prop where
  l      : u.l = if loadl then alu else s.l
  laluc0 : u.laluc0 = if loadl then carry else s.laluc0
  t      : u.t = if loadt then tval else s.t
  m      : u.m = if loadl && ramRelated s.cfg s.task then alu else s.m

/-- The instruction completes: in every state in which its word is ready, its early phase answers a cycle `c`, exec answers a
next state `u`, the core goes on running, and `P c u` holds. -/
def Completes (i : Instr) (s : State) (P : Cyc → State → Prop) : Prop :=
  s.WellFormed → ready (instrFields i) s = true →
    ∃ c u, earlyPhase (instrFields i) s = .ok c ∧ exec i s = .next u ∧ u.run = .running ∧ P c u

end Sys2Proof.Machine
end

