-- ==== Sys2Proof/Certificates/Slice0/Obligations.lean ====
section
/-! DEFINITION. The statements for the provers. -/

open Sys2Proof Sys2Proof.Machine

/-! ## Encoding -/

/-- Decoding the word of a well-formed instruction gives the instruction back, with every operand at every value. -/
def Obligations.DecodeOfEncode : Prop :=
  ∀ i : Instr, WellFormed i = true → decode (encode i) = i

/-- Every 32-bit word decodes to a well-formed instruction whose word it is: no word is rejected and no bit is dropped. Which of
the word's rows names it, and so what well-formed means, is the model's choice (notes/assumptions 3). -/
def Obligations.EncodeOfDecode : Prop :=
  ∀ w : UWord, WellFormed (decode w) = true ∧ encode (decode w) = w

/-- R100 (with the positions of R90): the fields of a decoded word are the word's bits at the positions of R90, here by
division of the word's value. -/
def Obligations.DecodedFieldsAreTheWordsBits : Prop :=
  ∀ w : UWord,
    (instrFields (decode w)).rsel.toNat = w.toNat / 2 ^ 27 ∧
      (instrFields (decode w)).aluf.toNat = w.toNat / 2 ^ 23 % 16 ∧
      (instrFields (decode w)).bs.toNat = w.toNat / 2 ^ 20 % 8 ∧
      (instrFields (decode w)).f1.toNat = w.toNat / 2 ^ 16 % 16 ∧
      (instrFields (decode w)).f2.toNat = w.toNat / 2 ^ 12 % 16 ∧
      (instrFields (decode w)).loadt.toNat = w.toNat / 2 ^ 11 % 2 ∧
      (instrFields (decode w)).loadl.toNat = w.toNat / 2 ^ 10 % 2 ∧
      (instrFields (decode w)).next.toNat = w.toNat % 2 ^ 10

/-- Words of 95_test_vectors.md (E6, V5, P1 to P4) decode to the instructions they stand for. -/
def Obligations.WrittenOutWordsDecode : Prop :=
  decode 0x00200401 = .bsNone 0 0 0 0 false true 1 ∧
    decode 0x00210001 = .f1Loadmar 0 0 2 0 false false 1 ∧
    decode 0x00204040 = .f2Bus 0 0 2 0 false false 64 ∧
    decode 0x08307801 = .f2Const 1 0 3 0 true false 1 ∧
    decode 0xF8100001 = .bsLoadr 31 0 0 0 false false 1 ∧
    decode 0x14000403 = .loadL 2 8 0 0 0 false 3 ∧
    decode 0x18000801 = .loadT 3 0 0 0 0 false 1 ∧
    decode 0x20090402 = .f1TaskSlot0o11 4 0 0 0 false true 2 ∧
    decode 0xFFFFFFFF = .aluUndef15 31 7 15 15 true true 1023

/-- The rows that one word stands in have one meaning: exec depends on the word only, so the row that the decoder names
(the model's choice, notes/assumptions 3) does not matter. -/
def Obligations.RowsOfOneWordAgree : Prop :=
  ∀ (i j : Instr) (s : State), encode i = encode j → exec i s = exec j s

/-! ## The step, the halt, the stall -/

/-- Where the fetched word is that of a well-formed instruction, the step of a running core is exec of it, and then the end
of the iteration: one peripheral tick more, the inputs used up, the events of the iteration applied (notes/assumptions 18). -/
def Obligations.StepRunsTheDecodedInstruction : Prop :=
  ∀ (s : State) (i : Instr), s.run = .running → WellFormed i = true →
    s.store.read (s.page * 1024 + s.mpc.toNat) = some (encode i ^^^ s.cfg.invMask) →
    step s =
      match exec i s with
      | .next t => .next (applyEvents s.input.events { t with ticks := s.ticks + 1, inputs := s.inputs.tail })
      | .fault e => .fault e
      | .refused r => .refused r

/-- A fetch of a store word that nothing has written faults. -/
def Obligations.UnwrittenFetchFaults : Prop :=
  ∀ s : State, s.run = .running → s.store.read (s.page * 1024 + s.mpc.toNat) = none →
    step s = .fault (.unwrittenFetch (s.page * 1024 + s.mpc.toNat))

/-- Cold reset sets the run state to running, a fatal error halts with its reason, and a halted core takes no further cycle,
whatever the instruction, the inputs and the budget; no event and no soft reset leaves the halt (R42). That exec, step and the
host's runs answer the halted core's own state is the model's choice (notes/assumptions 16). -/
def Obligations.HaltedCoreTakesNoCycle : Prop :=
  (∀ c : Config, c.wf = true → ∃ u, coldReset c = .next u ∧ u.run = .running) ∧
    (∀ (i : Instr) (s : State) (f : Fatal), s.run = .running → stalled (instrFields i) s = false →
      cycleBody (instrFields i) s = .error (.fatal f) → ∃ u, exec i s = .next u ∧ u.run = .halted f) ∧
    ∀ (s : State) (f : Fatal), s.run = .halted f →
      (∀ i, exec i s = .next s) ∧ step s = .next s ∧ (∀ n, hostRun n s = .next s ∧ core.run n s = .next s) ∧
        (softReset s).run = .halted f ∧ ∀ e, (applyEvent s e).run = .halted f

/-- A memory-triggering word whose collaborator stalls changes nothing, whatever row names it; the three queries are those
of R248. That a constant word stalls too, where F1_CONST is 1 or F2_CONST is 6, is the model's choice
(notes/assumptions 21). -/
def Obligations.StalledWordChangesNothing : Prop :=
  ∀ (i : Instr) (s : State),
    ((instrFields i).f1 = 1 ∧ s.input.marStall.getLsbD (instrFields i).rsel.toNat = true) ∨
      ((instrFields i).f2 = 6 ∧ s.input.writeStall = true) ∨
      ((instrFields i).bs = 5 ∧ (instrFields i).f1 ≠ s.cfg.f1Const ∧ (instrFields i).f2 ≠ s.cfg.f2Const ∧
        5 < s.cfg.bsConstThreshold ∧ s.input.readStall = true) →
    exec i s = .next s

/-- R258: any number of stalled iterations leaves every piece of core state as it was, the word still to be executed from the
same state: only the host's iteration count has moved on, and the next iteration fetches the same word. The hypothesis is
that each of the next `n` iterations stalls (the collaborator's answers come from that iteration's inputs) and that no other
agent acts between them. -/
def Obligations.StallsAreIdempotent : Prop :=
  ∀ (n : Nat) (s : State) (w : UWord), s.run = .running → fetch s = some w →
    (∀ k < n, stalled (wordFields w) { s with ticks := s.ticks + k, inputs := s.inputs.drop k } = true ∧
      ({ s with ticks := s.ticks + k, inputs := s.inputs.drop k } : State).input.events = []) →
    core.run n s = .next { s with ticks := s.ticks + n, inputs := s.inputs.drop n } ∧
      fetch { s with ticks := s.ticks + n, inputs := s.inputs.drop n } = some w

/-! ## Completion of every instruction -/

/-- Every instruction, with every operand, in every state in which its word is ready (the conditions of `ready`: running, no
stall, a pending read that can be performed, no dispatch that can stop), executes its whole cycle: the early phase, the ALU
and the write-back, the late phase, the commit and the next address, in that order; and the core goes on running. That `ready`
counts a slot with explicit empty entries only as filled is the model's choice (notes/assumptions 22). Words whose installed
operation makes the arbitrate call, or an act that `actReady` cannot bound, are left to CompletedCyclesCommit. -/
def Obligations.ReadyWordsComplete : Prop :=
  ∀ (i : Instr) (s : State), s.WellFormed → ready (instrFields i) s = true →
    ∃ c c', earlyPhase (instrFields i) s = .ok c ∧ latePhase (aluPhase c) = .ok c' ∧ c'.st.run = .running ∧
      exec i s = .next (nextAddress (instrFields i) c'.nmod (commit (instrFields i) (cycleAlu c) c.bus c'.st))

/-- Every instruction whose dispatched fields have their default entries gives exactly the state that the rules give field by
field (`plainNext`), with the scheduler's pipeline of notes/assumptions 9 and, where F1_CONST is a shift code, the shifter of
notes/assumptions 21, which are the model's: its result and its whole frame at once. -/
def Obligations.PlainWordsRefineTheirRules : Prop :=
  ∀ (i : Instr) (s : State), ready (instrFields i) s = true → plain (instrFields i) s = true →
    exec i s = .next (plainNext (instrFields i) s)

/-! ## ALU rows and load flags -/

/-- The outputs of the seven logic functions and the two undefined ones, as the table of R120 gives them. -/
def Obligations.AluLogicTable : Prop :=
  ∀ (k : SubCarry) (bus t : Word) (skip : Bool),
    aluFn k 0 bus t skip = ⟨bus, true, .alu, false⟩ ∧
      aluFn k 1 bus t skip = ⟨t, true, .bus, false⟩ ∧
      aluFn k 2 bus t skip = ⟨bus ||| t, true, .alu, false⟩ ∧
      aluFn k 3 bus t skip = ⟨bus &&& t, true, .bus, false⟩ ∧
      aluFn k 4 bus t skip = ⟨bus ^^^ t, true, .bus, false⟩ ∧
      aluFn k 12 bus t skip = ⟨bus &&& t, true, .alu, false⟩ ∧
      aluFn k 13 bus t skip = ⟨bus &&& ~~~t, true, .bus, false⟩ ∧
      aluFn k 14 bus t skip = ⟨0, true, .bus, true⟩ ∧
      aluFn k 15 bus t skip = ⟨0xFFFF, true, .bus, true⟩

/-- R138, R139: the outputs of the seven arithmetic functions: the 16-bit result, and the carry as a comparison of exact
values; the carry of a subtraction is 1 where it does not borrow, or under the other convention where it does. -/
def Obligations.AluArithmeticTable : Prop :=
  ∀ (k : SubCarry) (bus t : Word) (skip : Bool),
    aluFn k 5 bus t skip = ⟨bus + 1, decide (65536 ≤ bus.toNat + 1), .alu, true⟩ ∧
      aluFn k 6 bus t skip =
        ⟨bus - 1, if k = .noBorrow then decide (1 ≤ bus.toNat) else decide (bus.toNat < 1), .alu, true⟩ ∧
      aluFn k 7 bus t skip = ⟨bus + t, decide (65536 ≤ bus.toNat + t.toNat), .bus, true⟩ ∧
      aluFn k 8 bus t skip =
        ⟨bus - t, if k = .noBorrow then decide (t.toNat ≤ bus.toNat) else decide (bus.toNat < t.toNat), .bus, true⟩ ∧
      aluFn k 9 bus t skip =
        ⟨bus - t - 1, if k = .noBorrow then decide (t.toNat < bus.toNat) else decide (bus.toNat ≤ t.toNat), .bus, true⟩ ∧
      aluFn k 10 bus t skip = ⟨bus + t + 1, decide (65536 ≤ bus.toNat + t.toNat + 1), .alu, true⟩ ∧
      aluFn k 11 bus t skip =
        ⟨bus + bitWord skip, decide (65536 ≤ bus.toNat + skip.toNat), .alu, true⟩

/-- The seven logic rows complete and latch their result, LALUC0 0, and T from the ALU or the bus. -/
def Obligations.LogicRowsLatch : Prop :=
  ∀ (rsel : RegNum) (bs : BitVec 3) (f1 f2 : BitVec 4) (lt ll : Bool) (next : MicroAddr) (s : State),
    Completes (.aluBus rsel bs f1 f2 lt ll next) s (fun c u => Latches lt ll s u c.bus false c.bus) ∧
      Completes (.aluT rsel bs f1 f2 lt ll next) s (fun c u => Latches lt ll s u s.t false c.bus) ∧
      Completes (.aluBusOrT rsel bs f1 f2 lt ll next) s
        (fun c u => Latches lt ll s u (c.bus ||| s.t) false (c.bus ||| s.t)) ∧
      Completes (.aluBusAndT rsel bs f1 f2 lt ll next) s (fun c u => Latches lt ll s u (c.bus &&& s.t) false c.bus) ∧
      Completes (.aluBusXorT rsel bs f1 f2 lt ll next) s (fun c u => Latches lt ll s u (c.bus ^^^ s.t) false c.bus) ∧
      Completes (.aluBusDotT rsel bs f1 f2 lt ll next) s
        (fun c u => Latches lt ll s u (c.bus &&& s.t) false (c.bus &&& s.t)) ∧
      Completes (.aluBusAndNotT rsel bs f1 f2 lt ll next) s
        (fun c u => Latches lt ll s u (c.bus &&& ~~~s.t) false c.bus)

/-- The four adding rows complete and latch the sum, its carry, and T from the ALU or the bus. -/
def Obligations.AddingRowsLatch : Prop :=
  ∀ (rsel : RegNum) (bs : BitVec 3) (f1 f2 : BitVec 4) (lt ll : Bool) (next : MicroAddr) (s : State),
    Completes (.aluBusPlus1 rsel bs f1 f2 lt ll next) s
        (fun c u => Latches lt ll s u (c.bus + 1) (decide (65536 ≤ c.bus.toNat + 1)) (c.bus + 1)) ∧
      Completes (.aluBusPlusT rsel bs f1 f2 lt ll next) s
        (fun c u => Latches lt ll s u (c.bus + s.t) (decide (65536 ≤ c.bus.toNat + s.t.toNat)) c.bus) ∧
      Completes (.aluBusPlusTPlus1 rsel bs f1 f2 lt ll next) s
        (fun c u => Latches lt ll s u (c.bus + s.t + 1) (decide (65536 ≤ c.bus.toNat + s.t.toNat + 1)) (c.bus + s.t + 1)) ∧
      Completes (.aluBusPlusSkip rsel bs f1 f2 lt ll next) s
        (fun c u => Latches lt ll s u (c.bus + bitWord s.input.skip)
          (decide (65536 ≤ c.bus.toNat + s.input.skip.toNat)) (c.bus + bitWord s.input.skip))

/-- The three subtracting rows complete and latch the difference, the carry of the configured convention, and T from the ALU
or the bus. -/
def Obligations.SubtractingRowsLatch : Prop :=
  ∀ (rsel : RegNum) (bs : BitVec 3) (f1 f2 : BitVec 4) (lt ll : Bool) (next : MicroAddr) (s : State),
    Completes (.aluBusMinus1 rsel bs f1 f2 lt ll next) s
        (fun c u => Latches lt ll s u (c.bus - 1) (subCarry s.cfg.subCarry (decide (1 ≤ c.bus.toNat))) (c.bus - 1)) ∧
      Completes (.aluBusMinusT rsel bs f1 f2 lt ll next) s
        (fun c u => Latches lt ll s u (c.bus - s.t) (subCarry s.cfg.subCarry (decide (s.t.toNat ≤ c.bus.toNat))) c.bus) ∧
      Completes (.aluBusMinusTMinus1 rsel bs f1 f2 lt ll next) s
        (fun c u => Latches lt ll s u (c.bus - s.t - 1) (subCarry s.cfg.subCarry (decide (s.t.toNat < c.bus.toNat))) c.bus)

/-- The two undefined functions complete and latch their documented constants with carry 1; T takes the bus. -/
def Obligations.UndefinedFunctionRowsLatch : Prop :=
  ∀ (rsel : RegNum) (bs : BitVec 3) (f1 f2 : BitVec 4) (lt ll : Bool) (next : MicroAddr) (s : State),
    Completes (.aluUndef14 rsel bs f1 f2 lt ll next) s (fun c u => Latches lt ll s u 0 true c.bus) ∧
      Completes (.aluUndef15 rsel bs f1 f2 lt ll next) s (fun c u => Latches lt ll s u 0xFFFF true c.bus)

/-- R164 to R167, for every instruction and every cycle that runs to its end, whatever is installed: `c` is the cycle after
its early phase, `c'` after its late phase. L and LALUC0 are loaded by the load-L flag, T by the load-T flag, and M and
S[sbank[task]][0] by the load-L flag of a ram-related task; the commit changes nothing else of them. -/
def Obligations.CompletedCyclesCommit : Prop :=
  ∀ (i : Instr) (s : State) (c c' : Cyc), s.WellFormed → s.run = .running → stalled (instrFields i) s = false →
    earlyPhase (instrFields i) s = .ok c → latePhase (aluPhase c) = .ok c' →
    ∃ u, exec i s = .next u ∧
      u.l = (if (instrFields i).loadl then (cycleAlu c).alu else s.l) ∧
      u.laluc0 = (if (instrFields i).loadl then (if (cycleAlu c).arith then (cycleAlu c).aluc0 else false) else s.laluc0) ∧
      u.t = (if (instrFields i).loadt then (if (cycleAlu c).tsrc = .alu then (cycleAlu c).alu else c.bus) else s.t) ∧
      u.m = (if (instrFields i).loadl ∧ ramRelated s.cfg s.task then (cycleAlu c).alu else s.m) ∧
      ∀ (b : Nat) (k : RegNum), readS u b k =
        if (instrFields i).loadl ∧ ramRelated s.cfg s.task ∧ b = at16 c'.st.sbank s.task ∧ k = 0
          then some (cycleAlu c).alu else readS c'.st b k

/-- The rows LOADT and LOADL: T takes the ALU result or the bus as the function's T source says; L takes the ALU result and
LALUC0 the carry of an arithmetic function, else 0; for a ram-related task M takes it too, and S register 0 of the task's
own bank. -/
def Obligations.LoadFlagRowsCommit : Prop :=
  ∀ (rsel : RegNum) (aluf : BitVec 4) (bs : BitVec 3) (f1 f2 : BitVec 4) (lt ll : Bool) (next : MicroAddr) (s : State),
    Completes (.loadT rsel aluf bs f1 f2 ll next) s
        (fun c u => u.t = (if (cycleAlu c).tsrc = .alu then (cycleAlu c).alu else c.bus)) ∧
      Completes (.loadL rsel aluf bs f1 f2 lt next) s
        (fun c u => u.l = (cycleAlu c).alu ∧
          u.laluc0 = (if (cycleAlu c).arith then (cycleAlu c).aluc0 else false) ∧
          (ramRelated s.cfg s.task = true →
            u.m = (cycleAlu c).alu ∧ readS u (at16 u.sbank s.task) 0 = some (cycleAlu c).alu) ∧
          (ramRelated s.cfg s.task = false → u.m = s.m))

/-- The S registers of a word whose fields have their default entries: the L load of a ram-related task writes register 0 of
the task's own bank and nothing else, any other word leaves every S register as it was. -/
def Obligations.OnlyLoadsOfRamTasksWriteS : Prop :=
  ∀ (i : Instr) (s u : State), plain (instrFields i) s = true → exec i s = .next u →
    ∀ (b : Nat) (k : RegNum),
      ((instrFields i).loadl = false ∨ ramRelated s.cfg s.task = false ∨ b ≠ at16 s.sbank s.task ∨ k ≠ 0) →
      readS u b k = readS s b k

/-! ## Bus sources, constants, registers -/

/-- The six bus sources with a default operation complete, off the constant path and with default entries, and the ALU sees
the pending microcode-RAM read ANDed with what the source drives. -/
def Obligations.BusSourceRowsDriveTheBus : Prop :=
  ∀ (rsel : RegNum) (aluf f1 f2 : BitVec 4) (lt ll : Bool) (next : MicroAddr) (s : State),
    Completes (.bsReadr rsel aluf f1 f2 lt ll next) s (fun c _ =>
        plain ⟨rsel, aluf, 0, f1, f2, lt, ll, next⟩ s = true → constSel s.cfg ⟨rsel, aluf, 0, f1, f2, lt, ll, next⟩ = false →
          c.bus = readValue s &&& readR s rsel) ∧
      Completes (.bsLoadr rsel aluf f1 f2 lt ll next) s (fun c _ =>
        plain ⟨rsel, aluf, 1, f1, f2, lt, ll, next⟩ s = true → constSel s.cfg ⟨rsel, aluf, 1, f1, f2, lt, ll, next⟩ = false →
          c.bus = readValue s &&& s.cfg.loadrBus) ∧
      Completes (.bsNone rsel aluf f1 f2 lt ll next) s (fun c _ =>
        plain ⟨rsel, aluf, 2, f1, f2, lt, ll, next⟩ s = true → constSel s.cfg ⟨rsel, aluf, 2, f1, f2, lt, ll, next⟩ = false →
          c.bus = readValue s) ∧
      Completes (.bsReadmd rsel aluf f1 f2 lt ll next) s (fun c u =>
        plain ⟨rsel, aluf, 5, f1, f2, lt, ll, next⟩ s = true → constSel s.cfg ⟨rsel, aluf, 5, f1, f2, lt, ll, next⟩ = false →
          c.bus = readValue s &&& s.input.readMem ∧ ∃ later, u.calls = later ++ .readMem :: s.calls) ∧
      Completes (.bsMouse rsel aluf f1 f2 lt ll next) s (fun c u =>
        plain ⟨rsel, aluf, 6, f1, f2, lt, ll, next⟩ s = true → constSel s.cfg ⟨rsel, aluf, 6, f1, f2, lt, ll, next⟩ = false →
          c.bus = readValue s &&& s.input.mouse ∧ ∃ later, u.calls = later ++ .mouse :: s.calls) ∧
      Completes (.bsDisp rsel aluf f1 f2 lt ll next) s (fun c u =>
        plain ⟨rsel, aluf, 7, f1, f2, lt, ll, next⟩ s = true → constSel s.cfg ⟨rsel, aluf, 7, f1, f2, lt, ll, next⟩ = false →
          c.bus = readValue s &&& s.input.disp ∧ ∃ later, u.calls = later ++ .disp :: s.calls)

/-- The constant rows complete: the bus is the pending read ANDed with the constant at index rsel * 8 + bs, and the bus source
is not dispatched, whatever the BS bits, the task-specific values 3 and 4 among them: the early phase makes no call, no R
register changes, and no S register but by the L load of a ram-related task. -/
def Obligations.ConstantRowsBypassTheBusSource : Prop :=
  ∀ (rsel : RegNum) (aluf : BitVec 4) (bs : BitVec 3) (f1 f2 : BitVec 4) (lt ll : Bool) (next : MicroAddr) (s : State),
    (s.cfg.f1Const = 7 → Completes (.f1Const rsel aluf bs f2 lt ll next) s (fun c u =>
        plain ⟨rsel, aluf, bs, 7, f2, lt, ll, next⟩ s = true →
          c.bus = readValue s &&& constWord s.cfg (rsel.toNat * 8 + bs.toNat) ∧ c.st.calls = s.calls ∧ u.r = s.r ∧
            u.sregs = afterLoadS ⟨rsel, aluf, bs, 7, f2, lt, ll, next⟩ s (cycleAlu c).alu)) ∧
      (s.cfg.f2Const = 7 → Completes (.f2Const rsel aluf bs f1 lt ll next) s (fun c u =>
        plain ⟨rsel, aluf, bs, f1, 7, lt, ll, next⟩ s = true →
          c.bus = readValue s &&& constWord s.cfg (rsel.toNat * 8 + bs.toNat) ∧ c.st.calls = s.calls ∧ u.r = s.r ∧
            u.sregs = afterLoadS ⟨rsel, aluf, bs, f1, 7, lt, ll, next⟩ s (cycleAlu c).alu))

/-- LOADR writes the shifter's output, from L before the word's own commit and with the workaround of R159, to R[rsel], and
to no other R register. -/
def Obligations.LoadrWritesTheShifterOutput : Prop :=
  ∀ (rsel : RegNum) (aluf f1 f2 : BitVec 4) (lt ll : Bool) (next : MicroAddr) (s : State),
    Completes (.bsLoadr rsel aluf f1 f2 lt ll next) s (fun _ u =>
      plain ⟨rsel, aluf, 1, f1, f2, lt, ll, next⟩ s = true → constSel s.cfg ⟨rsel, aluf, 1, f1, f2, lt, ll, next⟩ = false →
        readR u rsel =
          (if s.cfg.quirkEnable = true ∧ rsel = s.cfg.quirkReg ∧ shifterOut f1 s.l s.t false &&& 3 ≠ 0
            then shifterOut f1 s.l s.t false &&& 0xFFFC else shifterOut f1 s.l s.t false) ∧
          ∀ j, j ≠ rsel → readR u j = readR s j)

/-- The three shift rows complete, and with LOADR they write L shifted left by one, shifted right by one, and with its bytes
swapped, as values (no workaround register, no magic), whatever operation an initializer installed for the F1 value: the
shifter is no table entry (R217). -/
def Obligations.ShiftRowsShiftL : Prop :=
  ∀ (rsel : RegNum) (aluf : BitVec 4) (bs : BitVec 3) (f2 : BitVec 4) (lt ll : Bool) (next : MicroAddr) (s : State),
    Completes (.f1Llsh1 rsel aluf bs f2 lt ll next) s (fun _ u =>
        bs = 1 → plainSlot s .bs 1 = true → plainSlot s .f2 f2.toNat = true →
          constSel s.cfg ⟨rsel, aluf, bs, 4, f2, lt, ll, next⟩ = false → rsel ≠ s.cfg.quirkReg →
          (readR u rsel).toNat = 2 * s.l.toNat % 65536) ∧
      Completes (.f1Lrsh1 rsel aluf bs f2 lt ll next) s (fun _ u =>
        bs = 1 → plainSlot s .bs 1 = true → plainSlot s .f2 f2.toNat = true →
          constSel s.cfg ⟨rsel, aluf, bs, 5, f2, lt, ll, next⟩ = false → rsel ≠ s.cfg.quirkReg →
          (readR u rsel).toNat = s.l.toNat / 2) ∧
      Completes (.f1Llcy8 rsel aluf bs f2 lt ll next) s (fun _ u =>
        bs = 1 → plainSlot s .bs 1 = true → plainSlot s .f2 f2.toNat = true →
          constSel s.cfg ⟨rsel, aluf, bs, 6, f2, lt, ll, next⟩ = false → rsel ≠ s.cfg.quirkReg →
          (readR u rsel).toNat = s.l.toNat % 256 * 256 + s.l.toNat / 256)

/-- With the magic input, which task 0's task-specific F2 operation gives, the left shift brings in T[15] and the right shift
brings in T[0] at bit 15. -/
def Obligations.MagicShiftsChainT : Prop :=
  ∀ (rsel : RegNum) (aluf f2 : BitVec 4) (lt ll : Bool) (next : MicroAddr) (s : State) (left : Bool),
    s.task = 0 → 8 ≤ f2.toNat → f2 ≠ s.cfg.f2Const →
    lookupSlot s.cfg.table ⟨.early, 0, .f2, f2.toNat⟩ = some (.op [.setMagic]) →
    lookupSlot s.cfg.table ⟨.late, 0, .f2, f2.toNat⟩ = none →
    plainSlot s .bs 1 = true → plainSlot s .f1 (if left then 4 else 5) = true →
    constSel s.cfg ⟨rsel, aluf, 1, if left then 4 else 5, f2, lt, ll, next⟩ = false → rsel ≠ s.cfg.quirkReg →
    Completes (if left then .f1Llsh1 rsel aluf 1 f2 lt ll next else .f1Lrsh1 rsel aluf 1 f2 lt ll next) s (fun _ u =>
      (readR u rsel).toNat =
        (if left then 2 * s.l.toNat % 65536 + s.t.toNat / 32768 else s.l.toNat / 2 + s.t.toNat % 2 * 32768) ∧
        ∀ j, j ≠ rsel → readR u j = readR s j)

/-- A word with default entries that does not dispatch LOADR leaves every R register as it was. -/
def Obligations.OnlyLoadrWritesR : Prop :=
  ∀ (i : Instr) (s u : State), plain (instrFields i) s = true →
    ((instrFields i).bs ≠ 1 ∨ constSel s.cfg (instrFields i) = true) → exec i s = .next u → u.r = s.r

/-! ## F1 rows -/

/-- LOADMAR completes and calls the collaborator with the register select and the ALU output, after the early phase's
calls. -/
def Obligations.LoadmarCallsTheCollaborator : Prop :=
  ∀ (rsel : RegNum) (aluf : BitVec 4) (bs : BitVec 3) (f2 : BitVec 4) (lt ll : Bool) (next : MicroAddr) (s : State),
    Completes (.f1Loadmar rsel aluf bs f2 lt ll next) s (fun c u =>
      plain ⟨rsel, aluf, bs, 1, f2, lt, ll, next⟩ s = true → s.cfg.f1Const ≠ 1 →
        ∃ later, u.calls = later ++ .loadMar rsel (cycleAlu c).alu :: c.st.calls)

/-- TASK completes and requests the task of the highest set wakeup bit, which is then the confirmed task for the next cycle;
this cycle's own switch evaluation still goes by what was confirmed before it. -/
def Obligations.TaskRowRequestsTheHighestWakeup : Prop :=
  ∀ (rsel : RegNum) (aluf : BitVec 4) (bs : BitVec 3) (f2 : BitVec 4) (lt ll : Bool) (next : MicroAddr) (s : State),
    Completes (.f1Task rsel aluf bs f2 lt ll next) s (fun _ u =>
      plain ⟨rsel, aluf, bs, 2, f2, lt, ll, next⟩ s = true → s.cfg.f1Const ≠ 2 →
        s.wakeup.getLsbD u.reqTask.toNat = true ∧ (∀ k : Task, u.reqTask < k → s.wakeup.getLsbD k.toNat = false) ∧
          u.confTask = u.reqTask ∧ u.task = s.confTask)

/-- A TASK word that reaches its arbitration with an empty wakeup mask halts the core with the report of R272, and the state
is else that of the start of the cycle: for a word whose fields have their default entries, wherever the mask is empty; for a
word whose F2 or BS runs an installed operation, wherever those leave the mask empty. That the calls which the cycle made
before its arbitration are not recorded either is the model's choice (notes/assumptions 15). -/
def Obligations.EmptyWakeupMaskIsFatal : Prop :=
  ∀ (rsel : RegNum) (aluf : BitVec 4) (bs : BitVec 3) (f2 : BitVec 4) (lt ll : Bool) (next : MicroAddr) (s : State),
    s.run = .running → stalled ⟨rsel, aluf, bs, 2, f2, lt, ll, next⟩ s = false → s.cfg.f1Const ≠ 2 →
    (readReady s = true →
      f2Ready ⟨rsel, aluf, bs, 2, f2, lt, ll, next⟩ s = true → bsReady ⟨rsel, aluf, bs, 2, f2, lt, ll, next⟩ s = true →
      plain ⟨rsel, aluf, bs, 2, f2, lt, ll, next⟩ s = true → s.wakeup = 0 →
      exec (.f1Task rsel aluf bs f2 lt ll next) s =
        .next { s with run := .halted ⟨.emptyWakeupMask, s.task, s.mpc, .f1, 2⟩ }) ∧
    ∀ c, beforeEarlyF1 ⟨rsel, aluf, bs, 2, f2, lt, ll, next⟩ s = .ok c → c.st.wakeup = 0 → plainSlot s .f1 2 = true →
      exec (.f1Task rsel aluf bs f2 lt ll next) s =
        .next { s with run := .halted ⟨.emptyWakeupMask, s.task, s.mpc, .f1, 2⟩ }

/-- The F1 rows NONE and BLOCK complete with no effect of their own: with default entries the requested task is unchanged, no
microcode-RAM request is left, and every call is the bus source's, LOADMD's or the switch's. -/
def Obligations.IdleF1RowsAddNothing : Prop :=
  ∀ (rsel : RegNum) (aluf : BitVec 4) (bs : BitVec 3) (f2 : BitVec 4) (lt ll : Bool) (next : MicroAddr) (s : State),
    Completes (.f1None rsel aluf bs f2 lt ll next) s (fun c u =>
        plain ⟨rsel, aluf, bs, 0, f2, lt, ll, next⟩ s = true → constSel s.cfg ⟨rsel, aluf, bs, 0, f2, lt, ll, next⟩ = false →
          u.reqTask = s.reqTask ∧ u.wrPend = false ∧ u.rdPend = false ∧ u.wakeup = s.wakeup ∧
            (f2 ≠ 6 → s.confTask = s.task → u.calls = c.st.calls)) ∧
      Completes (.f1Block rsel aluf bs f2 lt ll next) s (fun c u =>
        plain ⟨rsel, aluf, bs, 3, f2, lt, ll, next⟩ s = true → constSel s.cfg ⟨rsel, aluf, bs, 3, f2, lt, ll, next⟩ = false →
          u.reqTask = s.reqTask ∧ u.wrPend = false ∧ u.rdPend = false ∧ u.wakeup = s.wakeup ∧
            (f2 ≠ 6 → s.confTask = s.task → u.calls = c.st.calls))

/-! ## F2 rows and the next address -/

/-- The F2 rows complete, and with default entries and no task switch due the next micro address is NEXT with the row's branch
bits ORed in, within the same page: bit 0 where the bus is 0, the shifter output is negative, the shifter output is 0 or
LALUC0 is set; the low ten bits of the bus; nothing for NONE, LOADMD and CONST. That the shifter tested by SHLT0 and SHEQ0 shifts
in a constant word whose F1_CONST is a shift code (R160 against R207) is the model's choice (notes/assumptions 21). -/
def Obligations.F2RowsBranch : Prop :=
  ∀ (rsel : RegNum) (aluf : BitVec 4) (bs : BitVec 3) (f1 : BitVec 4) (lt ll : Bool) (next : MicroAddr) (s : State),
    s.confTask = s.task →
    Completes (.f2None rsel aluf bs f1 lt ll next) s (fun _ u =>
        plain ⟨rsel, aluf, bs, f1, 0, lt, ll, next⟩ s = true → u.mpc = next ∧ u.page = s.page) ∧
      Completes (.f2Buseq0 rsel aluf bs f1 lt ll next) s (fun c u =>
        plain ⟨rsel, aluf, bs, f1, 1, lt, ll, next⟩ s = true → s.cfg.f2Const ≠ 1 →
          u.mpc = (if c.bus = 0 then next ||| 1 else next) ∧ u.page = s.page) ∧
      Completes (.f2Shlt0 rsel aluf bs f1 lt ll next) s (fun _ u =>
        plain ⟨rsel, aluf, bs, f1, 2, lt, ll, next⟩ s = true → s.cfg.f2Const ≠ 2 →
          u.mpc = (if 32768 ≤ (shifterOut f1 s.l s.t false).toNat then next ||| 1 else next) ∧ u.page = s.page) ∧
      Completes (.f2Sheq0 rsel aluf bs f1 lt ll next) s (fun _ u =>
        plain ⟨rsel, aluf, bs, f1, 3, lt, ll, next⟩ s = true → s.cfg.f2Const ≠ 3 →
          u.mpc = (if shifterOut f1 s.l s.t false = 0 then next ||| 1 else next) ∧ u.page = s.page) ∧
      Completes (.f2Bus rsel aluf bs f1 lt ll next) s (fun c u =>
        plain ⟨rsel, aluf, bs, f1, 4, lt, ll, next⟩ s = true → s.cfg.f2Const ≠ 4 →
          u.mpc = next ||| BitVec.ofNat 10 (c.bus.toNat % 1024) ∧ u.page = s.page) ∧
      Completes (.f2Alucy rsel aluf bs f1 lt ll next) s (fun _ u =>
        plain ⟨rsel, aluf, bs, f1, 5, lt, ll, next⟩ s = true → s.cfg.f2Const ≠ 5 →
          u.mpc = (if s.laluc0 then next ||| 1 else next) ∧ u.page = s.page) ∧
      Completes (.f2Loadmd rsel aluf bs f1 lt ll next) s (fun c u =>
        plain ⟨rsel, aluf, bs, f1, 6, lt, ll, next⟩ s = true → s.cfg.f2Const ≠ 6 →
          u.mpc = next ∧ u.page = s.page ∧ ∃ earlier, u.calls = .writeMem c.bus :: earlier) ∧
      Completes (.f2Const rsel aluf bs f1 lt ll next) s (fun _ u =>
        plain ⟨rsel, aluf, bs, f1, 7, lt, ll, next⟩ s = true → u.mpc = next ∧ u.page = s.page)

/-! ## Task-specific slots -/

/-- The bus-source slots 3 and 4 run what is installed: with an early operation that drives S[b][rsel] onto the bus and a
late one that writes M to it, the bus has that register, the register then holds M, and every other S register, the R
registers, the bank selectors and the wakeup mask are unchanged. -/
def Obligations.BusSourceSlotsRunInstalledOperations : Prop :=
  ∀ (i : Instr) (s : State) (b : Word) (v : Word),
    ((∃ rsel aluf f1 f2 lt ll next, i = .bsTaskSlot3 rsel aluf f1 f2 lt ll next) ∨
      (∃ rsel aluf f1 f2 lt ll next, i = .bsTaskSlot4 rsel aluf f1 f2 lt ll next)) →
    b.toNat < s.cfg.sBanks → constSel s.cfg (instrFields i) = false →
    plainSlot s .f1 (instrFields i).f1.toNat = true → plainSlot s .f2 (instrFields i).f2.toNat = true →
    (instrFields i).loadl = false →
    lookupSlot s.cfg.table ⟨.early, s.task, .bs, (instrFields i).bs.toNat⟩ = some (.op [.andBus (.readS (.lit b) .rsel)]) →
    lookupSlot s.cfg.table ⟨.late, s.task, .bs, (instrFields i).bs.toNat⟩ = some (.op [.writeS (.lit b) .rsel .m]) →
    readS s b.toNat (instrFields i).rsel = some v →
    Completes i s (fun c u =>
      c.bus = readValue s &&& v ∧ readS u b.toNat (instrFields i).rsel = some s.m ∧
        (∀ b' k, (b' ≠ b.toNat ∨ k ≠ (instrFields i).rsel) → readS u b' k = readS s b' k) ∧
        u.r = s.r ∧ u.sbank = s.sbank ∧ u.wakeup = s.wakeup)

/-- The F1 slots 0o10 to 0o17 run what is installed: an early operation that drives a value onto the bus, and a late one that
requests a microcode-RAM write (or read) at the address in T. The request does not take effect in this cycle: the store changes
by a write that was pending before it only. The bank selectors, the scheduler's request and the wakeup mask are unchanged, and
without LOADR every R register. -/
def Obligations.F1SlotsRunInstalledOperations : Prop :=
  ∀ (i : Instr) (s : State) (v : Word) (isWrite : Bool),
    8 ≤ (instrFields i).f1.toNat → (instrFields i).f1 ≠ s.cfg.f1Const → ramRelated s.cfg s.task = true →
    (constSel s.cfg (instrFields i) = true ∨ plainSlot s .bs (instrFields i).bs.toNat = true) →
    ((instrFields i).f2 = s.cfg.f2Const ∨ plainSlot s .f2 (instrFields i).f2.toNat = true) →
    lookupSlot s.cfg.table ⟨.early, s.task, .f1, (instrFields i).f1.toNat⟩ = some (.op [.andBus (.lit v)]) →
    lookupSlot s.cfg.table ⟨.late, s.task, .f1, (instrFields i).f1.toNat⟩ =
      some (.op [if isWrite then .requestURamWrite else .requestURamRead]) →
    Completes i s (fun c u =>
      c.bus = plainBus (instrFields i) s &&& v ∧
        (isWrite = true → u.wrPend = true ∧ u.wrAddr = s.t ∧ u.rdPend = false) ∧
        (isWrite = false → u.rdPend = true ∧ u.rdAddr = s.t ∧ u.wrPend = false) ∧
        u.store = (writeBack s (cycleAlu c).alu).store ∧ (s.wrPend = false → u.store = s.store) ∧
        u.sbank = s.sbank ∧ u.reqTask = s.reqTask ∧ u.wakeup = s.wakeup ∧
        (((instrFields i).bs ≠ 1 ∨ constSel s.cfg (instrFields i) = true) → u.r = s.r))

/-- The F2 slots 0o10 to 0o17 run what is installed: an early operation that replaces the register select before READR reads
(R236), and a late one that ORs bits of the bus into the next address. The replaced select is also the register that LOADR
writes, and the constant index keeps the word's own select (R316). Else the R registers, the bank selectors and the wakeup
mask are unchanged. -/
def Obligations.F2SlotsRunInstalledOperations : Prop :=
  ∀ (i : Instr) (s : State) (n : Word),
    8 ≤ (instrFields i).f2.toNat → (instrFields i).f2 ≠ s.cfg.f2Const → n.toNat < 32 → s.confTask = s.task →
    (constSel s.cfg (instrFields i) = true ∨ plainSlot s .bs (instrFields i).bs.toNat = true) →
    ((instrFields i).f1 = s.cfg.f1Const ∨ plainSlot s .f1 (instrFields i).f1.toNat = true) →
    lookupSlot s.cfg.table ⟨.early, s.task, .f2, (instrFields i).f2.toNat⟩ = some (.op [.setRsel (.lit n)]) →
    lookupSlot s.cfg.table ⟨.late, s.task, .f2, (instrFields i).f2.toNat⟩ = some (.op [.orNext (.and .bus (.lit 1))]) →
    Completes i s (fun c u =>
      c.bus = readValue s &&&
          (if constSel s.cfg (instrFields i) then
            constWord s.cfg ((instrFields i).rsel.toNat * 8 + (instrFields i).bs.toNat)
          else if (instrFields i).bs = 0 then readR s (BitVec.ofNat 5 n.toNat) else sourceValue (instrFields i) s) ∧
        ((instrFields i).bs = 1 ∧ constSel s.cfg (instrFields i) = false →
          readR u (BitVec.ofNat 5 n.toNat) =
              quirkValue s.cfg (BitVec.ofNat 5 n.toNat) (shifterOut (instrFields i).f1 s.l s.t false) ∧
            ∀ j, j ≠ BitVec.ofNat 5 n.toNat → readR u j = readR s j) ∧
        (((instrFields i).bs ≠ 1 ∨ constSel s.cfg (instrFields i) = true) → u.r = s.r) ∧
        u.mpc = (if c.bus.getLsbD 0 then (instrFields i).next ||| 1 else (instrFields i).next) ∧
        u.sbank = s.sbank ∧ u.wakeup = s.wakeup)

/-- An installed late operation that sets the S-bank selector of task k sets that one and no other; an L load of the same word
already goes to the new bank, where k is the current task (R158, R166: the commit comes after the late phase). -/
def Obligations.InstalledSetSBankSelectsTheBank : Prop :=
  ∀ (i : Instr) (s : State) (k : Task) (b : Word),
    8 ≤ (instrFields i).f1.toNat → (instrFields i).f1 ≠ s.cfg.f1Const → b.toNat < s.cfg.sBanks →
    (constSel s.cfg (instrFields i) = true ∨ plainSlot s .bs (instrFields i).bs.toNat = true) →
    ((instrFields i).f2 = s.cfg.f2Const ∨ plainSlot s .f2 (instrFields i).f2.toNat = true) →
    lookupSlot s.cfg.table ⟨.early, s.task, .f1, (instrFields i).f1.toNat⟩ = none →
    lookupSlot s.cfg.table ⟨.late, s.task, .f1, (instrFields i).f1.toNat⟩ =
      some (.op [.setSBank (.lit (k.setWidth 16)) (.lit b)]) →
    Completes i s (fun c u =>
      at16 u.sbank k = b.toNat ∧ (∀ j, j ≠ k → at16 u.sbank j = at16 s.sbank j) ∧
        ((instrFields i).loadl = true → ramRelated s.cfg s.task = true →
          readS u (if k = s.task then b.toNat else at16 s.sbank s.task) 0 = some (cycleAlu c).alu))

/-- An installed late operation that sets the page moves the task's next fetch to that page (R245). The branch bits test the
shifter of notes/assumptions 21 where the word is a constant word whose F1_CONST is a shift code. -/
def Obligations.InstalledSetPageMovesTheNextFetch : Prop :=
  ∀ (i : Instr) (s : State) (p : Word),
    8 ≤ (instrFields i).f1.toNat → (instrFields i).f1 ≠ s.cfg.f1Const → s.confTask = s.task →
    p.toNat < 2 ^ s.cfg.pageBits →
    (constSel s.cfg (instrFields i) = true ∨ plainSlot s .bs (instrFields i).bs.toNat = true) →
    ((instrFields i).f2 = s.cfg.f2Const ∨ plainSlot s .f2 (instrFields i).f2.toNat = true) →
    lookupSlot s.cfg.table ⟨.early, s.task, .f1, (instrFields i).f1.toNat⟩ = none →
    lookupSlot s.cfg.table ⟨.late, s.task, .f1, (instrFields i).f1.toNat⟩ = some (.op [.setPage (.lit p)]) →
    Completes i s (fun _ u => fetchAddr u = p.toNat * 1024 + ((instrFields i).next ||| plainBits (instrFields i) s).toNat)

/-- Installed operations replace the default ones, of any value of their family (R189, R217, R237): a BS value drives what its
early operation gives, and its default read, write or call does not happen; an F2 value injects what its late operation gives,
and its default test or call does not; an F1 value whose early entry is empty requests no task, and its late operation may call
read_mem and use the answer (R245). -/
def Obligations.InstalledOperationsReplaceTheDefaults : Prop :=
  ∀ (i : Instr) (s : State) (v : Word),
    (constSel s.cfg (instrFields i) = false →
      plainSlot s .f1 (instrFields i).f1.toNat = true → plainSlot s .f2 (instrFields i).f2.toNat = true →
      lookupSlot s.cfg.table ⟨.early, s.task, .bs, (instrFields i).bs.toNat⟩ = some (.op [.andBus (.lit v)]) →
      lookupSlot s.cfg.table ⟨.late, s.task, .bs, (instrFields i).bs.toNat⟩ = some .absent →
      Completes i s (fun c u => c.bus = readValue s &&& v ∧ c.st.calls = s.calls ∧ u.r = s.r)) ∧
    ((instrFields i).f2 ≠ s.cfg.f2Const → s.confTask = s.task →
      (constSel s.cfg (instrFields i) = true ∨ plainSlot s .bs (instrFields i).bs.toNat = true) →
      ((instrFields i).f1 = s.cfg.f1Const ∨ plainSlot s .f1 (instrFields i).f1.toNat = true) →
      lookupSlot s.cfg.table ⟨.early, s.task, .f2, (instrFields i).f2.toNat⟩ = none →
      lookupSlot s.cfg.table ⟨.late, s.task, .f2, (instrFields i).f2.toNat⟩ = some (.op [.orNext (.lit v)]) →
      Completes i s (fun c u =>
        u.mpc = (instrFields i).next ||| BitVec.ofNat 10 (v.toNat % 1024) ∧ u.page = s.page ∧
          ((instrFields i).f1 ≠ 1 → u.calls = c.st.calls))) ∧
    ((instrFields i).f1 ≠ s.cfg.f1Const → v.toNat < 32 →
      (constSel s.cfg (instrFields i) = true ∨ plainSlot s .bs (instrFields i).bs.toNat = true) →
      ((instrFields i).f2 = s.cfg.f2Const ∨ plainSlot s .f2 (instrFields i).f2.toNat = true) →
      lookupSlot s.cfg.table ⟨.early, s.task, .f1, (instrFields i).f1.toNat⟩ = some .absent →
      lookupSlot s.cfg.table ⟨.late, s.task, .f1, (instrFields i).f1.toNat⟩ =
        some (.op [.ask .readMem, .writeR (.lit v) (.answer 0)]) →
      Completes i s (fun c u =>
        u.reqTask = s.reqTask ∧ (∃ later, u.calls = later ++ .readMem :: c.st.calls) ∧
          ((instrFields i).bs ≠ 1 ∨ constSel s.cfg (instrFields i) = true →
            readR u (BitVec.ofNat 5 v.toNat) = quirkValue s.cfg (BitVec.ofNat 5 v.toNat) s.input.readMem ∧
              ∀ j, j ≠ BitVec.ofNat 5 v.toNat → readR u j = readR s j)))

/-! ## Microcode store -/

/-- R55: writing v to an in-range bank, then any other writes to other cells, and then reading both halves, or fetching the
word, gives v back. -/
def Obligations.StoreRoundTrip : Prop :=
  ∀ (s : State) (bank b word : Nat) (v : UWord) (others : List (Nat × Nat × UWord)),
    Memory.wf s.store = true → bankInRange s.cfg bank = some b → word < 1024 →
    (∀ p ∈ others, p.2.1 < 1024 ∧ (p.1 ≠ b ∨ p.2.1 ≠ word)) →
    ∃ u hi lo, u = others.foldl (fun s p => uRamWrite s p.1 p.2.1 p.2.2) (uRamWrite s b word v) ∧
      uRamRead u bank word true = .ok hi ∧ uRamRead u bank word false = .ok lo ∧ hi ++ lo = v ∧
      uFetch u ((s.cfg.romPages + b) * 1024 + word) = some v

/-- Which bank numbers are in range, and what a read out of range answers. -/
def Obligations.RamBanksOutOfRangeReadTheSentinel : Prop :=
  ∀ (s : State) (bank word : Nat) (half : Bool),
    (bankInRange s.cfg bank = none ↔
      s.cfg.ramPages ≤ (if s.cfg.cramBankWrap then bank % s.cfg.ramPages else bank)) ∧
      (bankInRange s.cfg bank = none → uRamRead s bank word half = .ok 0xFFFF)

/-- A pending microcode-RAM write is stored by the next word that completes, whatever the word: M as it was before the word's
commit in the high half, the word's ALU result in the low half, in stored form; every other word of the store keeps its
value; out of range nothing is stored. -/
def Obligations.PendingWriteIsStored : Prop :=
  ∀ (i : Instr) (s : State), s.wrPend = true →
    Completes i s (fun c u =>
      (∀ b, bankInRange s.cfg (ramBank s.wrAddr) = some b →
        uFetch u ((s.cfg.romPages + b) * 1024 + ramWord s.wrAddr) = some (s.m ++ (cycleAlu c).alu) ∧
          ∀ a, a ≠ (s.cfg.romPages + b) * 1024 + ramWord s.wrAddr → u.store.read a = s.store.read a) ∧
      (bankInRange s.cfg (ramBank s.wrAddr) = none → ∀ a, u.store.read a = s.store.read a))

/-- Where no write is pending, no instruction changes any word of the store. -/
def Obligations.StoreUnchangedWithoutAPendingWrite : Prop :=
  ∀ (i : Instr) (s u : State), s.wrPend = false → exec i s = .next u → ∀ a, u.store.read a = s.store.read a

/-- No step writes a ROM page. -/
def Obligations.RomIsNeverWritten : Prop :=
  ∀ s u : State, Memory.wf s.store = true → step s = .next u →
    u.cfg.romPages = s.cfg.romPages ∧ ∀ a, a < s.cfg.romPages * 1024 → u.store.read a = s.store.read a

/-- R81: the cycle that stores a pending write executes the word fetched before the store, and a fetch after that cycle sees
the new word, also where the stored word is the very one that was executed. -/
def Obligations.NextFetchSeesTheWrittenWord : Prop :=
  ∀ (s : State) (w : UWord) (b : Nat), s.WellFormed → s.wrPend = true → bankInRange s.cfg (ramBank s.wrAddr) = some b →
    fetch s = some w → ready (wordFields w) s = true →
    ∃ c u, earlyPhase (wordFields w) s = .ok c ∧ step s = .next u ∧
      uFetch u ((s.cfg.romPages + b) * 1024 + ramWord s.wrAddr) = some (s.m ++ (cycleAlu c).alu)

/-- What stops a cycle whose microcode-RAM read is pending: an address that selects the ROM is refused, an in-range word that
nothing has written faults, before anything else of the cycle. -/
def Obligations.PendingReadStops : Prop :=
  ∀ (i : Instr) (s : State), s.run = .running → stalled (instrFields i) s = false → s.rdPend = true →
    (ramRomsel s.rdAddr = true → exec i s = .refused .romReadThroughRamPort) ∧
      (∀ b, ramRomsel s.rdAddr = false → bankInRange s.cfg (ramBank s.rdAddr) = some b →
        s.store.read ((s.cfg.romPages + b) * 1024 + ramWord s.rdAddr) = none →
        exec i s = .fault (.unwrittenRam b (ramWord s.rdAddr)))

/-! ## Faults and fatal errors -/

/-- The only faults and refusals of an instruction are the model outcomes of R276: an unwritten RAM word under a pending
read, a ROM read through the RAM port, an installed operation outside its ports. With default entries and no pending read
an instruction never stops. -/
def Obligations.InstructionsStopOnlyAsTheRulesSay : Prop :=
  ∀ (i : Instr) (s : State),
    (∀ e, exec i s = .fault e → s.rdPend = true ∧ ∃ b, bankInRange s.cfg (ramBank s.rdAddr) = some b ∧
      s.store.read (ramAddr s.cfg b (ramWord s.rdAddr)) = none ∧ e = .unwrittenRam b (ramWord s.rdAddr)) ∧
      (∀ r, exec i s = .refused r →
        (r = .romReadThroughRamPort ∧ s.rdPend = true ∧ ramRomsel s.rdAddr = true) ∨
          (r = .unmodelledOperation ∧ plain (instrFields i) s = false))

/-- A fatal error abandons the cycle whole: the state is that of the start of the cycle but for the run state, which reports
the current task and the micro address of the word (R270). Two clauses are the model's choice: that the record of the external
calls is as before the cycle too (notes/assumptions 15), and that an empty mask is reported as F1 TASK whichever operation made
the arbitration call (notes/assumptions 24; R272 says so of a TASK word). -/
def Obligations.FatalErrorsAbandonTheCycle : Prop :=
  ∀ (i : Instr) (s u : State), s.run = .running → exec i s = .next u → u.run ≠ .running →
    ∃ f, u = { s with run := .halted f } ∧ f.task = s.task ∧ f.mpc = s.mpc ∧
      (f.kind = .emptyWakeupMask → f.family = .f1 ∧ f.code = 2) ∧
      (f.kind = .unsetTaskSpecific → (f.family = .bs ∧ (f.code = 3 ∨ f.code = 4)) ∨ (f.family ≠ .bs ∧ 8 ≤ f.code))

/-- A word that issues a task-specific value which no initializer filled halts the core with the report of the first such field
in cycle order: F2, then BS, then F1 (R271). That the calls which the cycle made before the error are not recorded is the
model's choice (notes/assumptions 15). -/
def Obligations.UnsetSlotsAreFatal : Prop :=
  ∀ (i : Instr) (s : State), s.WellFormed → s.run = .running → stalled (instrFields i) s = false → readReady s = true →
    (taskSpecific .f2 (instrFields i).f2.toNat = true → (instrFields i).f2 ≠ s.cfg.f2Const →
      plainSlot s .f2 (instrFields i).f2.toNat = true →
      exec i s = .next { s with run := .halted ⟨.unsetTaskSpecific, s.task, s.mpc, .f2, (instrFields i).f2.toNat⟩ }) ∧
    (f2Ready (instrFields i) s = true → taskSpecific .bs (instrFields i).bs.toNat = true →
      constSel s.cfg (instrFields i) = false → plainSlot s .bs (instrFields i).bs.toNat = true →
      exec i s = .next { s with run := .halted ⟨.unsetTaskSpecific, s.task, s.mpc, .bs, (instrFields i).bs.toNat⟩ }) ∧
    (f2Ready (instrFields i) s = true → bsReady (instrFields i) s = true →
      taskSpecific .f1 (instrFields i).f1.toNat = true → (instrFields i).f1 ≠ s.cfg.f1Const →
      plainSlot s .f1 (instrFields i).f1.toNat = true →
      exec i s = .next { s with run := .halted ⟨.unsetTaskSpecific, s.task, s.mpc, .f1, (instrFields i).f1.toNat⟩ })

/-! ## Frames and invariants -/

/-- What no instruction changes, whatever is installed: the configuration, the bank registers, the inputs and the tick count;
the latches L, LALUC0 and M without load-L, and T without load-T; the saved addresses of every task but the current one; and
where no switch is due, those of all tasks and the current task. -/
def Obligations.ExecFrame : Prop :=
  ∀ (i : Instr) (s u : State), exec i s = .next u →
    u.cfg = s.cfg ∧ u.bankreg = s.bankreg ∧ u.inputs = s.inputs ∧ u.ticks = s.ticks ∧
      ((instrFields i).loadl = false → u.l = s.l ∧ u.laluc0 = s.laluc0 ∧ u.m = s.m) ∧
      ((instrFields i).loadt = false → u.t = s.t) ∧
      (∀ k, k ≠ s.task → at16 u.taskMpc k = at16 s.taskMpc k ∧ at16 u.taskPage k = at16 s.taskPage k) ∧
      (s.confTask = s.task → u.task = s.task ∧ u.taskMpc = s.taskMpc ∧ u.taskPage = s.taskPage)

/-- Every step keeps a state well formed: the configuration, the page numbers, the S-bank selectors, the number of S banks and
the canonical form of the store. -/
def Obligations.StepKeepsWellFormed : Prop :=
  ∀ s u : State, s.WellFormed → step s = .next u → u.WellFormed

/-- The state after a cold reset under a well-formed configuration is well formed, and so is the state after reset. -/
def Obligations.ResetIsWellFormed : Prop :=
  State.WellFormed State.reset ∧ ∀ c : Config, c.wf = true → State.WellFormed (State.cold c)

/-! ## Task switch -/

/-- The switch to task j saves the current task's address and page, restores those of j, makes j current, calls its callback
where there is one, and touches nothing else (R256). Where another task is confirmed, a ready word, whatever is installed, ends
with that switch, made after its own next address: `u0` is what the same word leaves where no switch is due. When a switch is
due is the scheduler's pipeline (notes/assumptions 9). -/
def Obligations.SwitchSavesAndRestores : Prop :=
  (∀ (s : State) (j : Task), j ≠ s.task →
    ∃ u, u = switchTo s j ∧ u.task = j ∧ u.mpc = at16 s.taskMpc j ∧ u.page = at16 s.taskPage j ∧
      at16 u.taskMpc s.task = s.mpc ∧ at16 u.taskPage s.task = s.page ∧
      (∀ k, k ≠ s.task → at16 u.taskMpc k = at16 s.taskMpc k ∧ at16 u.taskPage k = at16 s.taskPage k) ∧
      u.calls = (if s.cfg.becameActive.getLsbD j.toNat then .becameActive j :: s.calls else s.calls) ∧
      u = { s with
        task := u.task, mpc := u.mpc, page := u.page, taskMpc := u.taskMpc, taskPage := u.taskPage, calls := u.calls }) ∧
  ∀ (i : Instr) (s : State), s.WellFormed → s.confTask ≠ s.task → ready (instrFields i) s = true →
    ∃ u u0, exec i s = .next u ∧ exec i { s with confTask := s.task } = .next u0 ∧ u0.task = s.task ∧
      u.task = s.confTask ∧ u.mpc = at16 s.taskMpc s.confTask ∧ u.page = at16 s.taskPage s.confTask ∧
      at16 u.taskMpc s.task = u0.mpc ∧ at16 u.taskPage s.task = u0.page ∧
      (∀ k, k ≠ s.task → at16 u.taskMpc k = at16 s.taskMpc k ∧ at16 u.taskPage k = at16 s.taskPage k) ∧
      u.calls = (if s.cfg.becameActive.getLsbD s.confTask.toNat then .becameActive s.confTask :: u0.calls else u0.calls) ∧
      u = { u0 with
        task := u.task, mpc := u.mpc, page := u.page, taskMpc := u.taskMpc, taskPage := u.taskPage, calls := u.calls }

/-- R257: if task a executes a TASK word in one cycle and the arbitration selects task b, the next cycle still executes a word
of task a, and the one after it executes the first word of task b, at b's saved address. -/
def Obligations.TaskSwitchTakesOneMoreWord : Prop :=
  ∀ (rsel : RegNum) (aluf : BitVec 4) (bs : BitVec 3) (f2 : BitVec 4) (lt ll : Bool) (next : MicroAddr) (s : State)
    (j : Instr) (b : Task),
    s.WellFormed → s.confTask = s.task → ready ⟨rsel, aluf, bs, 2, f2, lt, ll, next⟩ s = true →
    plain ⟨rsel, aluf, bs, 2, f2, lt, ll, next⟩ s = true → s.cfg.f1Const ≠ 2 → highestWakeup s.wakeup = some b →
    ∃ u, exec (.f1Task rsel aluf bs f2 lt ll next) s = .next u ∧ u.task = s.task ∧
      (ready (instrFields j) u = true →
        ∃ v, exec j u = .next v ∧ v.task = b ∧ (b ≠ s.task → v.mpc = at16 s.taskMpc b ∧ v.page = at16 s.taskPage b))

/-! ## Bank registers, reset, host -/

/-- The bank-register window of 16 addresses: a write through it stores the low four bits in the entry of its offset and
changes nothing else, a read of it answers that entry ORed with 0xFFF0, and an access outside it does nothing to the core. -/
def Obligations.BankRegisterWindow : Prop :=
  ∀ (s : State) (addr v : Word),
    (∀ off, bankRegWrite s off v = { s with bankreg := set16 s.bankreg off (v.extractLsb' 0 4) } ∧
      bankRegRead s off = (at16 s.bankreg off).setWidth 16 ||| 0xFFF0) ∧
    (∀ off, bankRegOffset s.cfg addr = some off →
      applyEvent s (.busWrite addr v) = { s with bankreg := set16 s.bankreg off (v.extractLsb' 0 4) } ∧
        bankRegRead (bankRegWrite s off v) off = (v &&& 0xF) ||| 0xFFF0 ∧
        (∀ k, k ≠ off → bankRegRead (bankRegWrite s off v) k = bankRegRead s k) ∧
        applyEvent (applyEvent s (.busWrite addr v)) (.busRead addr) =
          logCall (applyEvent s (.busWrite addr v)) (.busAnswer addr ((v &&& 0xF) ||| 0xFFF0))) ∧
      (bankRegOffset s.cfg addr = none → applyEvent s (.busWrite addr v) = s ∧ applyEvent s (.busRead addr) = s) ∧
      (s.cfg.bankregBase.toNat + 15 < 65536 → ∀ off,
        (bankRegOffset s.cfg addr = some off ↔ addr.toNat = s.cfg.bankregBase.toNat + off.toNat))

/-- Cold reset refuses a configuration that is not well formed; under a well-formed one it gives the values that the rules
state for reset. (The values of R, S, L, LALUC0, T and M are the model's, notes/assumptions 1, and are not stated.) -/
def Obligations.ColdResetState : Prop :=
  ∀ c : Config,
    (c.wf = false → coldReset c = .refused .illFormedConfig) ∧
      (c.wf = true → ∃ s, coldReset c = .next s ∧ s.cfg = c ∧ s.run = .running ∧ s.task = 0 ∧
        (∀ k : Task, (at16 s.taskMpc k).toNat = at16 c.initOffset k ∧
          at16 s.taskPage k = (if c.resetMode.getLsbD k.toNat then 0 else c.romPages) ∧
          at16 s.sbank k = 0 ∧ at16 s.bankreg k = 0) ∧
        s.mpc = at16 s.taskMpc 0 ∧ s.page = at16 s.taskPage 0 ∧
        fetchAddr s = at16 s.taskPage 0 * 1024 + at16 c.initOffset 0 ∧ s.wrPend = false ∧ s.rdPend = false ∧ s.wakeup = 1)

/-- Cold reset puts the words of the images, which list each address once, into the ROM and RAM pages, and no other word: a
word that no image lists holds no value. -/
def Obligations.ColdResetLoadsTheImages : Prop :=
  ∀ (c : Config) (a : Nat) (w : UWord), (c.romImage.map Prod.fst).Nodup → (c.ramImage.map Prod.fst).Nodup →
    (a < c.romPages * 1024 → ((State.cold c).store.read a = some w ↔ (a, w) ∈ c.romImage)) ∧
      (a < c.ramPages * 1024 → ((State.cold c).store.read (c.romPages * 1024 + a) = some w ↔ (a, w) ∈ c.ramImage)) ∧
      ((c.romPages + c.ramPages) * 1024 ≤ a → (State.cold c).store.read a = none)

/-- R302: soft reset restarts every task's address and page, makes task 0 current at once, returns the requested task as it
was, and changes nothing else but the scheduler's request. -/
def Obligations.SoftResetRestartsTheTasks : Prop :=
  ∀ s : State,
    softResetAnswer s = s.reqTask ∧ (softReset s).task = 0 ∧ (softReset s).mpc = bootMpc s.cfg 0 ∧
      (softReset s).page = bootPage s.cfg 0 ∧
      (∀ k : Task, at16 (softReset s).taskMpc k = BitVec.ofNat 10 (at16 s.cfg.initOffset k) ∧
        at16 (softReset s).taskPage k = (if s.cfg.resetMode.getLsbD k.toNat then 0 else s.cfg.romPages)) ∧
      { softReset s with
        task := s.task, mpc := s.mpc, page := s.page, taskMpc := s.taskMpc, taskPage := s.taskPage, reqTask := s.reqTask,
        confTask := s.confTask } = s

/-- R242: an exit of the host's loop (budget or leave flag) saves the current task's address and page, and a later run that
restores them fetches the same word at the same address in the same state. That an exit by the flag uses up no inputs, so that
the flag stays set in the state it leaves, is the model's choice (notes/assumptions 23). -/
def Obligations.LoopExitSavesTheTask : Prop :=
  ∀ (s : State) (n : Nat), s.run = .running → (n = 0 ∨ s.input.leave = true) →
    hostRun n s = .next (saveTask s) ∧ at16 (saveTask s).taskMpc s.task = s.mpc ∧
      at16 (saveTask s).taskPage s.task = s.page ∧ loadTask (saveTask s) = saveTask s ∧
      (saveTask s).mpc = s.mpc ∧ (saveTask s).page = s.page ∧ fetch (saveTask s) = fetch s

/-- R241: with a budget of n the loop runs at most n iterations, each of which counts one peripheral tick, stalled or not; it
ends before n of them only halted or with the leave flag set. That the flag is still set in the state the run leaves is the
model's choice (notes/assumptions 23). -/
def Obligations.BudgetCountsIterations : Prop :=
  ∀ (n : Nat) (s u : State), hostRun n s = .next u →
    u.ticks ≤ s.ticks + n ∧ (u.ticks = s.ticks + n ∨ u.run ≠ .running ∨ u.input.leave = true)

/-- Wakeup bits: a device sets or clears its own task's bit between two cycles, no other bit, and nothing else of the state;
arbitration of a mask picks a set bit above which no bit is set, and finds none exactly in the empty mask. -/
def Obligations.WakeupBitsAndArbitration : Prop :=
  (∀ (s : State) (k j : Task),
    (applyEvent s (.wake k)).wakeup.getLsbD j.toNat = (s.wakeup.getLsbD j.toNat || j == k) ∧
      (applyEvent s (.unwake k)).wakeup.getLsbD j.toNat = (s.wakeup.getLsbD j.toNat && j != k) ∧
      { applyEvent s (.wake k) with wakeup := s.wakeup } = s ∧ { applyEvent s (.unwake k) with wakeup := s.wakeup } = s) ∧
    ∀ mask : BitVec 16, (highestWakeup mask = none ↔ mask = 0) ∧
      ∀ j, highestWakeup mask = some j ↔
        mask.getLsbD j.toNat = true ∧ ∀ k : Task, j < k → mask.getLsbD k.toNat = false
end

