-- ==== Sys2Proof/Laws/Decode.lean ====
section
/-! SUPPORT. The fields of a word: packing and unpacking are inverse, and what the decoder's names mean. -/

namespace Sys2Proof

/-- Bit `i` of a packed word, field by field. -/
theorem encodeFields_bit (d : Microword) (i : Nat) (h : i < 32) :
    (encodeFields d).getLsbD i =
      if i < 10 then d.next.getLsbD i
      else if i < 11 then d.loadl
      else if i < 12 then d.loadt
      else if i < 16 then d.f2.getLsbD (i - 12)
      else if i < 20 then d.f1.getLsbD (i - 16)
      else if i < 23 then d.bs.getLsbD (i - 20)
      else if i < 27 then d.aluf.getLsbD (i - 23)
      else d.rsel.getLsbD (i - 27) := by
  unfold encodeFields
  interval_cases i <;> simp

/-- Unpacking the fields of a packed word gives the fields back. -/
theorem wordFields_encodeFields (d : Microword) : wordFields (encodeFields d) = d := by
  obtain ⟨rsel, aluf, bs, f1, f2, lt, ll, next⟩ := d
  simp only [wordFields, Microword.mk.injEq]
  refine ⟨?_, ?_, ?_, ?_, ?_, ?_, ?_, ?_⟩
  case refine_6 => rw [encodeFields_bit _ _ (by decide)]; rfl
  case refine_7 => rw [encodeFields_bit _ _ (by decide)]; rfl
  all_goals
    apply BitVec.eq_of_getLsbD_eq
    intro i hi
    rw [BitVec.getLsbD_extractLsb', encodeFields_bit _ _ (by omega)]
    simp only [hi, decide_true, Bool.true_and]
    repeat' split
    all_goals first
      | omega
      | (congr 1; omega)

/-- Packing the unpacked fields of a word gives the word back. -/
theorem encodeFields_wordFields (w : UWord) : encodeFields (wordFields w) = w := by
  apply BitVec.eq_of_getLsbD_eq
  intro i hi
  rw [encodeFields_bit _ _ hi]
  simp only [wordFields, BitVec.getLsbD_extractLsb']
  repeat' split
  all_goals first
    | (rw [decide_eq_true (by omega), Bool.true_and]; congr 1; omega)
    | (congr 1; omega)

/-- The word of an instruction determines its fields. -/
theorem wordFields_encode (i : Instr) : wordFields (encode i) = instrFields i := wordFields_encodeFields _

theorem exists_ofNat {n : Nat} (v : BitVec n) : ∃ k < 2 ^ n, v = BitVec.ofNat n k :=
  ⟨v.toNat, v.isLt, by simp⟩

theorem instrFields_aluInstr (d : Microword) : instrFields (aluInstr d) = d := by
  obtain ⟨rsel, aluf, bs, f1, f2, lt, ll, next⟩ := d
  obtain ⟨k, hk, rfl⟩ := exists_ofNat aluf
  interval_cases k <;> rfl

theorem instrFields_bsInstr (d : Microword) : instrFields (bsInstr d) = d := by
  obtain ⟨rsel, aluf, bs, f1, f2, lt, ll, next⟩ := d
  obtain ⟨k, hk, rfl⟩ := exists_ofNat bs
  interval_cases k <;> rfl

theorem instrFields_f1Instr (d : Microword) : instrFields (f1Instr d) = d := by
  obtain ⟨rsel, aluf, bs, f1, f2, lt, ll, next⟩ := d
  obtain ⟨k, hk, rfl⟩ := exists_ofNat f1
  interval_cases k <;> rfl

theorem instrFields_f2Instr (d : Microword) : instrFields (f2Instr d) = d := by
  obtain ⟨rsel, aluf, bs, f1, f2, lt, ll, next⟩ := d
  obtain ⟨k, hk, rfl⟩ := exists_ofNat f2
  interval_cases k <;> rfl

theorem loadt_of_namedBy {aluf : BitVec 4} {bs : BitVec 3} {f1 f2 : BitVec 4} {lt ll : Bool}
    (h : namedBy aluf bs f1 f2 lt ll = .loadT) : lt = true := by
  by_contra hlt
  rw [Bool.not_eq_true] at hlt
  subst hlt
  unfold namedBy at h
  repeat' split at h
  all_goals simp_all

theorem loadl_of_namedBy {aluf : BitVec 4} {bs : BitVec 3} {f1 f2 : BitVec 4} {lt ll : Bool}
    (h : namedBy aluf bs f1 f2 lt ll = .loadL) : ll = true := by
  by_contra hll
  rw [Bool.not_eq_true] at hll
  subst hll
  unfold namedBy at h
  repeat' split at h
  all_goals simp_all

/-- Naming a word keeps all its fields. -/
theorem instrFields_nameWord (d : Microword) : instrFields (nameWord d) = d := by
  unfold nameWord
  split
  · exact instrFields_aluInstr d
  · exact instrFields_bsInstr d
  · exact instrFields_f1Instr d
  · exact instrFields_f2Instr d
  · next h => obtain ⟨rsel, aluf, bs, f1, f2, lt, ll, next⟩ := d; cases loadt_of_namedBy h; rfl
  · next h => obtain ⟨rsel, aluf, bs, f1, f2, lt, ll, next⟩ := d; cases loadl_of_namedBy h; rfl

/-- The fields of a decoded word are the word's fields. -/
theorem instrFields_decode (w : UWord) : instrFields (decode w) = wordFields w := instrFields_nameWord _

end Sys2Proof
end

