-- ==== Sys2Proof/Laws/State.lean ====
section
/-! SUPPORT. One lemma per field per update of the state, so that no later proof unfolds a record update. -/

namespace Sys2Proof.Machine

variable (s : State)

section logCall

variable (k : Call)

@[simp] theorem logCall_run : (logCall s k).run = s.run := rfl
@[simp] theorem logCall_cfg : (logCall s k).cfg = s.cfg := rfl
@[simp] theorem logCall_task : (logCall s k).task = s.task := rfl
@[simp] theorem logCall_mpc : (logCall s k).mpc = s.mpc := rfl
@[simp] theorem logCall_page : (logCall s k).page = s.page := rfl
@[simp] theorem logCall_r : (logCall s k).r = s.r := rfl
@[simp] theorem logCall_sregs : (logCall s k).sregs = s.sregs := rfl
@[simp] theorem logCall_l : (logCall s k).l = s.l := rfl
@[simp] theorem logCall_t : (logCall s k).t = s.t := rfl
@[simp] theorem logCall_m : (logCall s k).m = s.m := rfl
@[simp] theorem logCall_laluc0 : (logCall s k).laluc0 = s.laluc0 := rfl
@[simp] theorem logCall_taskMpc : (logCall s k).taskMpc = s.taskMpc := rfl
@[simp] theorem logCall_taskPage : (logCall s k).taskPage = s.taskPage := rfl
@[simp] theorem logCall_sbank : (logCall s k).sbank = s.sbank := rfl
@[simp] theorem logCall_wrPend : (logCall s k).wrPend = s.wrPend := rfl
@[simp] theorem logCall_wrAddr : (logCall s k).wrAddr = s.wrAddr := rfl
@[simp] theorem logCall_rdPend : (logCall s k).rdPend = s.rdPend := rfl
@[simp] theorem logCall_rdAddr : (logCall s k).rdAddr = s.rdAddr := rfl
@[simp] theorem logCall_store : (logCall s k).store = s.store := rfl
@[simp] theorem logCall_bankreg : (logCall s k).bankreg = s.bankreg := rfl
@[simp] theorem logCall_wakeup : (logCall s k).wakeup = s.wakeup := rfl
@[simp] theorem logCall_reqTask : (logCall s k).reqTask = s.reqTask := rfl
@[simp] theorem logCall_confTask : (logCall s k).confTask = s.confTask := rfl
@[simp] theorem logCall_ticks : (logCall s k).ticks = s.ticks := rfl
@[simp] theorem logCall_inputs : (logCall s k).inputs = s.inputs := rfl
@[simp] theorem logCall_calls : (logCall s k).calls = k :: s.calls := rfl

end logCall

section writeR

variable (i : RegNum) (v : Word)

@[simp] theorem writeR_run : (writeR s i v).run = s.run := rfl
@[simp] theorem writeR_cfg : (writeR s i v).cfg = s.cfg := rfl
@[simp] theorem writeR_task : (writeR s i v).task = s.task := rfl
@[simp] theorem writeR_mpc : (writeR s i v).mpc = s.mpc := rfl
@[simp] theorem writeR_page : (writeR s i v).page = s.page := rfl
@[simp] theorem writeR_r : (writeR s i v).r = set32 s.r i (quirkValue s.cfg i v) := rfl
@[simp] theorem writeR_sregs : (writeR s i v).sregs = s.sregs := rfl
@[simp] theorem writeR_l : (writeR s i v).l = s.l := rfl
@[simp] theorem writeR_t : (writeR s i v).t = s.t := rfl
@[simp] theorem writeR_m : (writeR s i v).m = s.m := rfl
@[simp] theorem writeR_laluc0 : (writeR s i v).laluc0 = s.laluc0 := rfl
@[simp] theorem writeR_taskMpc : (writeR s i v).taskMpc = s.taskMpc := rfl
@[simp] theorem writeR_taskPage : (writeR s i v).taskPage = s.taskPage := rfl
@[simp] theorem writeR_sbank : (writeR s i v).sbank = s.sbank := rfl
@[simp] theorem writeR_wrPend : (writeR s i v).wrPend = s.wrPend := rfl
@[simp] theorem writeR_wrAddr : (writeR s i v).wrAddr = s.wrAddr := rfl
@[simp] theorem writeR_rdPend : (writeR s i v).rdPend = s.rdPend := rfl
@[simp] theorem writeR_rdAddr : (writeR s i v).rdAddr = s.rdAddr := rfl
@[simp] theorem writeR_store : (writeR s i v).store = s.store := rfl
@[simp] theorem writeR_bankreg : (writeR s i v).bankreg = s.bankreg := rfl
@[simp] theorem writeR_wakeup : (writeR s i v).wakeup = s.wakeup := rfl
@[simp] theorem writeR_reqTask : (writeR s i v).reqTask = s.reqTask := rfl
@[simp] theorem writeR_confTask : (writeR s i v).confTask = s.confTask := rfl
@[simp] theorem writeR_ticks : (writeR s i v).ticks = s.ticks := rfl
@[simp] theorem writeR_inputs : (writeR s i v).inputs = s.inputs := rfl
@[simp] theorem writeR_calls : (writeR s i v).calls = s.calls := rfl

end writeR

section setSBank

variable (k : Task) (b : Nat)

@[simp] theorem setSBank_run : (setSBank s k b).run = s.run := rfl
@[simp] theorem setSBank_cfg : (setSBank s k b).cfg = s.cfg := rfl
@[simp] theorem setSBank_task : (setSBank s k b).task = s.task := rfl
@[simp] theorem setSBank_mpc : (setSBank s k b).mpc = s.mpc := rfl
@[simp] theorem setSBank_page : (setSBank s k b).page = s.page := rfl
@[simp] theorem setSBank_r : (setSBank s k b).r = s.r := rfl
@[simp] theorem setSBank_sregs : (setSBank s k b).sregs = s.sregs := rfl
@[simp] theorem setSBank_l : (setSBank s k b).l = s.l := rfl
@[simp] theorem setSBank_t : (setSBank s k b).t = s.t := rfl
@[simp] theorem setSBank_m : (setSBank s k b).m = s.m := rfl
@[simp] theorem setSBank_laluc0 : (setSBank s k b).laluc0 = s.laluc0 := rfl
@[simp] theorem setSBank_taskMpc : (setSBank s k b).taskMpc = s.taskMpc := rfl
@[simp] theorem setSBank_taskPage : (setSBank s k b).taskPage = s.taskPage := rfl
@[simp] theorem setSBank_sbank : (setSBank s k b).sbank = set16 s.sbank k b := rfl
@[simp] theorem setSBank_wrPend : (setSBank s k b).wrPend = s.wrPend := rfl
@[simp] theorem setSBank_wrAddr : (setSBank s k b).wrAddr = s.wrAddr := rfl
@[simp] theorem setSBank_rdPend : (setSBank s k b).rdPend = s.rdPend := rfl
@[simp] theorem setSBank_rdAddr : (setSBank s k b).rdAddr = s.rdAddr := rfl
@[simp] theorem setSBank_store : (setSBank s k b).store = s.store := rfl
@[simp] theorem setSBank_bankreg : (setSBank s k b).bankreg = s.bankreg := rfl
@[simp] theorem setSBank_wakeup : (setSBank s k b).wakeup = s.wakeup := rfl
@[simp] theorem setSBank_reqTask : (setSBank s k b).reqTask = s.reqTask := rfl
@[simp] theorem setSBank_confTask : (setSBank s k b).confTask = s.confTask := rfl
@[simp] theorem setSBank_ticks : (setSBank s k b).ticks = s.ticks := rfl
@[simp] theorem setSBank_inputs : (setSBank s k b).inputs = s.inputs := rfl
@[simp] theorem setSBank_calls : (setSBank s k b).calls = s.calls := rfl

end setSBank

section setPage

variable (p : Nat)

@[simp] theorem setPage_run : (setPage s p).run = s.run := rfl
@[simp] theorem setPage_cfg : (setPage s p).cfg = s.cfg := rfl
@[simp] theorem setPage_task : (setPage s p).task = s.task := rfl
@[simp] theorem setPage_mpc : (setPage s p).mpc = s.mpc := rfl
@[simp] theorem setPage_page : (setPage s p).page = p % 2 ^ s.cfg.pageBits := rfl
@[simp] theorem setPage_r : (setPage s p).r = s.r := rfl
@[simp] theorem setPage_sregs : (setPage s p).sregs = s.sregs := rfl
@[simp] theorem setPage_l : (setPage s p).l = s.l := rfl
@[simp] theorem setPage_t : (setPage s p).t = s.t := rfl
@[simp] theorem setPage_m : (setPage s p).m = s.m := rfl
@[simp] theorem setPage_laluc0 : (setPage s p).laluc0 = s.laluc0 := rfl
@[simp] theorem setPage_taskMpc : (setPage s p).taskMpc = s.taskMpc := rfl
@[simp] theorem setPage_taskPage : (setPage s p).taskPage = s.taskPage := rfl
@[simp] theorem setPage_sbank : (setPage s p).sbank = s.sbank := rfl
@[simp] theorem setPage_wrPend : (setPage s p).wrPend = s.wrPend := rfl
@[simp] theorem setPage_wrAddr : (setPage s p).wrAddr = s.wrAddr := rfl
@[simp] theorem setPage_rdPend : (setPage s p).rdPend = s.rdPend := rfl
@[simp] theorem setPage_rdAddr : (setPage s p).rdAddr = s.rdAddr := rfl
@[simp] theorem setPage_store : (setPage s p).store = s.store := rfl
@[simp] theorem setPage_bankreg : (setPage s p).bankreg = s.bankreg := rfl
@[simp] theorem setPage_wakeup : (setPage s p).wakeup = s.wakeup := rfl
@[simp] theorem setPage_reqTask : (setPage s p).reqTask = s.reqTask := rfl
@[simp] theorem setPage_confTask : (setPage s p).confTask = s.confTask := rfl
@[simp] theorem setPage_ticks : (setPage s p).ticks = s.ticks := rfl
@[simp] theorem setPage_inputs : (setPage s p).inputs = s.inputs := rfl
@[simp] theorem setPage_calls : (setPage s p).calls = s.calls := rfl

end setPage

section requestURamWrite

@[simp] theorem requestURamWrite_run : (requestURamWrite s).run = s.run := rfl
@[simp] theorem requestURamWrite_cfg : (requestURamWrite s).cfg = s.cfg := rfl
@[simp] theorem requestURamWrite_task : (requestURamWrite s).task = s.task := rfl
@[simp] theorem requestURamWrite_mpc : (requestURamWrite s).mpc = s.mpc := rfl
@[simp] theorem requestURamWrite_page : (requestURamWrite s).page = s.page := rfl
@[simp] theorem requestURamWrite_r : (requestURamWrite s).r = s.r := rfl
@[simp] theorem requestURamWrite_sregs : (requestURamWrite s).sregs = s.sregs := rfl
@[simp] theorem requestURamWrite_l : (requestURamWrite s).l = s.l := rfl
@[simp] theorem requestURamWrite_t : (requestURamWrite s).t = s.t := rfl
@[simp] theorem requestURamWrite_m : (requestURamWrite s).m = s.m := rfl
@[simp] theorem requestURamWrite_laluc0 : (requestURamWrite s).laluc0 = s.laluc0 := rfl
@[simp] theorem requestURamWrite_taskMpc : (requestURamWrite s).taskMpc = s.taskMpc := rfl
@[simp] theorem requestURamWrite_taskPage : (requestURamWrite s).taskPage = s.taskPage := rfl
@[simp] theorem requestURamWrite_sbank : (requestURamWrite s).sbank = s.sbank := rfl
@[simp] theorem requestURamWrite_wrPend : (requestURamWrite s).wrPend = true := rfl
@[simp] theorem requestURamWrite_wrAddr : (requestURamWrite s).wrAddr = s.t := rfl
@[simp] theorem requestURamWrite_rdPend : (requestURamWrite s).rdPend = s.rdPend := rfl
@[simp] theorem requestURamWrite_rdAddr : (requestURamWrite s).rdAddr = s.rdAddr := rfl
@[simp] theorem requestURamWrite_store : (requestURamWrite s).store = s.store := rfl
@[simp] theorem requestURamWrite_bankreg : (requestURamWrite s).bankreg = s.bankreg := rfl
@[simp] theorem requestURamWrite_wakeup : (requestURamWrite s).wakeup = s.wakeup := rfl
@[simp] theorem requestURamWrite_reqTask : (requestURamWrite s).reqTask = s.reqTask := rfl
@[simp] theorem requestURamWrite_confTask : (requestURamWrite s).confTask = s.confTask := rfl
@[simp] theorem requestURamWrite_ticks : (requestURamWrite s).ticks = s.ticks := rfl
@[simp] theorem requestURamWrite_inputs : (requestURamWrite s).inputs = s.inputs := rfl
@[simp] theorem requestURamWrite_calls : (requestURamWrite s).calls = s.calls := rfl

end requestURamWrite

section requestURamRead

@[simp] theorem requestURamRead_run : (requestURamRead s).run = s.run := rfl
@[simp] theorem requestURamRead_cfg : (requestURamRead s).cfg = s.cfg := rfl
@[simp] theorem requestURamRead_task : (requestURamRead s).task = s.task := rfl
@[simp] theorem requestURamRead_mpc : (requestURamRead s).mpc = s.mpc := rfl
@[simp] theorem requestURamRead_page : (requestURamRead s).page = s.page := rfl
@[simp] theorem requestURamRead_r : (requestURamRead s).r = s.r := rfl
@[simp] theorem requestURamRead_sregs : (requestURamRead s).sregs = s.sregs := rfl
@[simp] theorem requestURamRead_l : (requestURamRead s).l = s.l := rfl
@[simp] theorem requestURamRead_t : (requestURamRead s).t = s.t := rfl
@[simp] theorem requestURamRead_m : (requestURamRead s).m = s.m := rfl
@[simp] theorem requestURamRead_laluc0 : (requestURamRead s).laluc0 = s.laluc0 := rfl
@[simp] theorem requestURamRead_taskMpc : (requestURamRead s).taskMpc = s.taskMpc := rfl
@[simp] theorem requestURamRead_taskPage : (requestURamRead s).taskPage = s.taskPage := rfl
@[simp] theorem requestURamRead_sbank : (requestURamRead s).sbank = s.sbank := rfl
@[simp] theorem requestURamRead_wrPend : (requestURamRead s).wrPend = s.wrPend := rfl
@[simp] theorem requestURamRead_wrAddr : (requestURamRead s).wrAddr = s.wrAddr := rfl
@[simp] theorem requestURamRead_rdPend : (requestURamRead s).rdPend = true := rfl
@[simp] theorem requestURamRead_rdAddr : (requestURamRead s).rdAddr = s.t := rfl
@[simp] theorem requestURamRead_store : (requestURamRead s).store = s.store := rfl
@[simp] theorem requestURamRead_bankreg : (requestURamRead s).bankreg = s.bankreg := rfl
@[simp] theorem requestURamRead_wakeup : (requestURamRead s).wakeup = s.wakeup := rfl
@[simp] theorem requestURamRead_reqTask : (requestURamRead s).reqTask = s.reqTask := rfl
@[simp] theorem requestURamRead_confTask : (requestURamRead s).confTask = s.confTask := rfl
@[simp] theorem requestURamRead_ticks : (requestURamRead s).ticks = s.ticks := rfl
@[simp] theorem requestURamRead_inputs : (requestURamRead s).inputs = s.inputs := rfl
@[simp] theorem requestURamRead_calls : (requestURamRead s).calls = s.calls := rfl

end requestURamRead

section uRamWrite

variable (b w : Nat) (v : UWord)

@[simp] theorem uRamWrite_run : (uRamWrite s b w v).run = s.run := rfl
@[simp] theorem uRamWrite_cfg : (uRamWrite s b w v).cfg = s.cfg := rfl
@[simp] theorem uRamWrite_task : (uRamWrite s b w v).task = s.task := rfl
@[simp] theorem uRamWrite_mpc : (uRamWrite s b w v).mpc = s.mpc := rfl
@[simp] theorem uRamWrite_page : (uRamWrite s b w v).page = s.page := rfl
@[simp] theorem uRamWrite_r : (uRamWrite s b w v).r = s.r := rfl
@[simp] theorem uRamWrite_sregs : (uRamWrite s b w v).sregs = s.sregs := rfl
@[simp] theorem uRamWrite_l : (uRamWrite s b w v).l = s.l := rfl
@[simp] theorem uRamWrite_t : (uRamWrite s b w v).t = s.t := rfl
@[simp] theorem uRamWrite_m : (uRamWrite s b w v).m = s.m := rfl
@[simp] theorem uRamWrite_laluc0 : (uRamWrite s b w v).laluc0 = s.laluc0 := rfl
@[simp] theorem uRamWrite_taskMpc : (uRamWrite s b w v).taskMpc = s.taskMpc := rfl
@[simp] theorem uRamWrite_taskPage : (uRamWrite s b w v).taskPage = s.taskPage := rfl
@[simp] theorem uRamWrite_sbank : (uRamWrite s b w v).sbank = s.sbank := rfl
@[simp] theorem uRamWrite_wrPend : (uRamWrite s b w v).wrPend = s.wrPend := rfl
@[simp] theorem uRamWrite_wrAddr : (uRamWrite s b w v).wrAddr = s.wrAddr := rfl
@[simp] theorem uRamWrite_rdPend : (uRamWrite s b w v).rdPend = s.rdPend := rfl
@[simp] theorem uRamWrite_rdAddr : (uRamWrite s b w v).rdAddr = s.rdAddr := rfl
@[simp] theorem uRamWrite_store : (uRamWrite s b w v).store = s.store.write (ramAddr s.cfg b w) (v ^^^ s.cfg.invMask) := rfl
@[simp] theorem uRamWrite_bankreg : (uRamWrite s b w v).bankreg = s.bankreg := rfl
@[simp] theorem uRamWrite_wakeup : (uRamWrite s b w v).wakeup = s.wakeup := rfl
@[simp] theorem uRamWrite_reqTask : (uRamWrite s b w v).reqTask = s.reqTask := rfl
@[simp] theorem uRamWrite_confTask : (uRamWrite s b w v).confTask = s.confTask := rfl
@[simp] theorem uRamWrite_ticks : (uRamWrite s b w v).ticks = s.ticks := rfl
@[simp] theorem uRamWrite_inputs : (uRamWrite s b w v).inputs = s.inputs := rfl
@[simp] theorem uRamWrite_calls : (uRamWrite s b w v).calls = s.calls := rfl

end uRamWrite

section bankRegWrite

variable (k : Task) (v : Word)

@[simp] theorem bankRegWrite_run : (bankRegWrite s k v).run = s.run := rfl
@[simp] theorem bankRegWrite_cfg : (bankRegWrite s k v).cfg = s.cfg := rfl
@[simp] theorem bankRegWrite_task : (bankRegWrite s k v).task = s.task := rfl
@[simp] theorem bankRegWrite_mpc : (bankRegWrite s k v).mpc = s.mpc := rfl
@[simp] theorem bankRegWrite_page : (bankRegWrite s k v).page = s.page := rfl
@[simp] theorem bankRegWrite_r : (bankRegWrite s k v).r = s.r := rfl
@[simp] theorem bankRegWrite_sregs : (bankRegWrite s k v).sregs = s.sregs := rfl
@[simp] theorem bankRegWrite_l : (bankRegWrite s k v).l = s.l := rfl
@[simp] theorem bankRegWrite_t : (bankRegWrite s k v).t = s.t := rfl
@[simp] theorem bankRegWrite_m : (bankRegWrite s k v).m = s.m := rfl
@[simp] theorem bankRegWrite_laluc0 : (bankRegWrite s k v).laluc0 = s.laluc0 := rfl
@[simp] theorem bankRegWrite_taskMpc : (bankRegWrite s k v).taskMpc = s.taskMpc := rfl
@[simp] theorem bankRegWrite_taskPage : (bankRegWrite s k v).taskPage = s.taskPage := rfl
@[simp] theorem bankRegWrite_sbank : (bankRegWrite s k v).sbank = s.sbank := rfl
@[simp] theorem bankRegWrite_wrPend : (bankRegWrite s k v).wrPend = s.wrPend := rfl
@[simp] theorem bankRegWrite_wrAddr : (bankRegWrite s k v).wrAddr = s.wrAddr := rfl
@[simp] theorem bankRegWrite_rdPend : (bankRegWrite s k v).rdPend = s.rdPend := rfl
@[simp] theorem bankRegWrite_rdAddr : (bankRegWrite s k v).rdAddr = s.rdAddr := rfl
@[simp] theorem bankRegWrite_store : (bankRegWrite s k v).store = s.store := rfl
@[simp] theorem bankRegWrite_bankreg : (bankRegWrite s k v).bankreg = set16 s.bankreg k (v.extractLsb' 0 4) := rfl
@[simp] theorem bankRegWrite_wakeup : (bankRegWrite s k v).wakeup = s.wakeup := rfl
@[simp] theorem bankRegWrite_reqTask : (bankRegWrite s k v).reqTask = s.reqTask := rfl
@[simp] theorem bankRegWrite_confTask : (bankRegWrite s k v).confTask = s.confTask := rfl
@[simp] theorem bankRegWrite_ticks : (bankRegWrite s k v).ticks = s.ticks := rfl
@[simp] theorem bankRegWrite_inputs : (bankRegWrite s k v).inputs = s.inputs := rfl
@[simp] theorem bankRegWrite_calls : (bankRegWrite s k v).calls = s.calls := rfl

end bankRegWrite

section wake

variable (k : Task)

@[simp] theorem wake_run : (wake s k).run = s.run := rfl
@[simp] theorem wake_cfg : (wake s k).cfg = s.cfg := rfl
@[simp] theorem wake_task : (wake s k).task = s.task := rfl
@[simp] theorem wake_mpc : (wake s k).mpc = s.mpc := rfl
@[simp] theorem wake_page : (wake s k).page = s.page := rfl
@[simp] theorem wake_r : (wake s k).r = s.r := rfl
@[simp] theorem wake_sregs : (wake s k).sregs = s.sregs := rfl
@[simp] theorem wake_l : (wake s k).l = s.l := rfl
@[simp] theorem wake_t : (wake s k).t = s.t := rfl
@[simp] theorem wake_m : (wake s k).m = s.m := rfl
@[simp] theorem wake_laluc0 : (wake s k).laluc0 = s.laluc0 := rfl
@[simp] theorem wake_taskMpc : (wake s k).taskMpc = s.taskMpc := rfl
@[simp] theorem wake_taskPage : (wake s k).taskPage = s.taskPage := rfl
@[simp] theorem wake_sbank : (wake s k).sbank = s.sbank := rfl
@[simp] theorem wake_wrPend : (wake s k).wrPend = s.wrPend := rfl
@[simp] theorem wake_wrAddr : (wake s k).wrAddr = s.wrAddr := rfl
@[simp] theorem wake_rdPend : (wake s k).rdPend = s.rdPend := rfl
@[simp] theorem wake_rdAddr : (wake s k).rdAddr = s.rdAddr := rfl
@[simp] theorem wake_store : (wake s k).store = s.store := rfl
@[simp] theorem wake_bankreg : (wake s k).bankreg = s.bankreg := rfl
@[simp] theorem wake_wakeup : (wake s k).wakeup = s.wakeup ||| BitVec.twoPow 16 k.toNat := rfl
@[simp] theorem wake_reqTask : (wake s k).reqTask = s.reqTask := rfl
@[simp] theorem wake_confTask : (wake s k).confTask = s.confTask := rfl
@[simp] theorem wake_ticks : (wake s k).ticks = s.ticks := rfl
@[simp] theorem wake_inputs : (wake s k).inputs = s.inputs := rfl
@[simp] theorem wake_calls : (wake s k).calls = s.calls := rfl

end wake

section unwake

variable (k : Task)

@[simp] theorem unwake_run : (unwake s k).run = s.run := rfl
@[simp] theorem unwake_cfg : (unwake s k).cfg = s.cfg := rfl
@[simp] theorem unwake_task : (unwake s k).task = s.task := rfl
@[simp] theorem unwake_mpc : (unwake s k).mpc = s.mpc := rfl
@[simp] theorem unwake_page : (unwake s k).page = s.page := rfl
@[simp] theorem unwake_r : (unwake s k).r = s.r := rfl
@[simp] theorem unwake_sregs : (unwake s k).sregs = s.sregs := rfl
@[simp] theorem unwake_l : (unwake s k).l = s.l := rfl
@[simp] theorem unwake_t : (unwake s k).t = s.t := rfl
@[simp] theorem unwake_m : (unwake s k).m = s.m := rfl
@[simp] theorem unwake_laluc0 : (unwake s k).laluc0 = s.laluc0 := rfl
@[simp] theorem unwake_taskMpc : (unwake s k).taskMpc = s.taskMpc := rfl
@[simp] theorem unwake_taskPage : (unwake s k).taskPage = s.taskPage := rfl
@[simp] theorem unwake_sbank : (unwake s k).sbank = s.sbank := rfl
@[simp] theorem unwake_wrPend : (unwake s k).wrPend = s.wrPend := rfl
@[simp] theorem unwake_wrAddr : (unwake s k).wrAddr = s.wrAddr := rfl
@[simp] theorem unwake_rdPend : (unwake s k).rdPend = s.rdPend := rfl
@[simp] theorem unwake_rdAddr : (unwake s k).rdAddr = s.rdAddr := rfl
@[simp] theorem unwake_store : (unwake s k).store = s.store := rfl
@[simp] theorem unwake_bankreg : (unwake s k).bankreg = s.bankreg := rfl
@[simp] theorem unwake_wakeup : (unwake s k).wakeup = s.wakeup &&& ~~~BitVec.twoPow 16 k.toNat := rfl
@[simp] theorem unwake_reqTask : (unwake s k).reqTask = s.reqTask := rfl
@[simp] theorem unwake_confTask : (unwake s k).confTask = s.confTask := rfl
@[simp] theorem unwake_ticks : (unwake s k).ticks = s.ticks := rfl
@[simp] theorem unwake_inputs : (unwake s k).inputs = s.inputs := rfl
@[simp] theorem unwake_calls : (unwake s k).calls = s.calls := rfl

end unwake

section takeFatal

variable (f : Fatal)

@[simp] theorem takeFatal_run : (takeFatal s f).run = .halted f := rfl
@[simp] theorem takeFatal_cfg : (takeFatal s f).cfg = s.cfg := rfl
@[simp] theorem takeFatal_task : (takeFatal s f).task = s.task := rfl
@[simp] theorem takeFatal_mpc : (takeFatal s f).mpc = s.mpc := rfl
@[simp] theorem takeFatal_page : (takeFatal s f).page = s.page := rfl
@[simp] theorem takeFatal_r : (takeFatal s f).r = s.r := rfl
@[simp] theorem takeFatal_sregs : (takeFatal s f).sregs = s.sregs := rfl
@[simp] theorem takeFatal_l : (takeFatal s f).l = s.l := rfl
@[simp] theorem takeFatal_t : (takeFatal s f).t = s.t := rfl
@[simp] theorem takeFatal_m : (takeFatal s f).m = s.m := rfl
@[simp] theorem takeFatal_laluc0 : (takeFatal s f).laluc0 = s.laluc0 := rfl
@[simp] theorem takeFatal_taskMpc : (takeFatal s f).taskMpc = s.taskMpc := rfl
@[simp] theorem takeFatal_taskPage : (takeFatal s f).taskPage = s.taskPage := rfl
@[simp] theorem takeFatal_sbank : (takeFatal s f).sbank = s.sbank := rfl
@[simp] theorem takeFatal_wrPend : (takeFatal s f).wrPend = s.wrPend := rfl
@[simp] theorem takeFatal_wrAddr : (takeFatal s f).wrAddr = s.wrAddr := rfl
@[simp] theorem takeFatal_rdPend : (takeFatal s f).rdPend = s.rdPend := rfl
@[simp] theorem takeFatal_rdAddr : (takeFatal s f).rdAddr = s.rdAddr := rfl
@[simp] theorem takeFatal_store : (takeFatal s f).store = s.store := rfl
@[simp] theorem takeFatal_bankreg : (takeFatal s f).bankreg = s.bankreg := rfl
@[simp] theorem takeFatal_wakeup : (takeFatal s f).wakeup = s.wakeup := rfl
@[simp] theorem takeFatal_reqTask : (takeFatal s f).reqTask = s.reqTask := rfl
@[simp] theorem takeFatal_confTask : (takeFatal s f).confTask = s.confTask := rfl
@[simp] theorem takeFatal_ticks : (takeFatal s f).ticks = s.ticks := rfl
@[simp] theorem takeFatal_inputs : (takeFatal s f).inputs = s.inputs := rfl
@[simp] theorem takeFatal_calls : (takeFatal s f).calls = s.calls := rfl

end takeFatal

section loadWord

variable (a : Nat) (w : UWord)

@[simp] theorem loadWord_run : (loadWord s a w).run = s.run := rfl
@[simp] theorem loadWord_cfg : (loadWord s a w).cfg = s.cfg := rfl
@[simp] theorem loadWord_task : (loadWord s a w).task = s.task := rfl
@[simp] theorem loadWord_mpc : (loadWord s a w).mpc = s.mpc := rfl
@[simp] theorem loadWord_page : (loadWord s a w).page = s.page := rfl
@[simp] theorem loadWord_r : (loadWord s a w).r = s.r := rfl
@[simp] theorem loadWord_sregs : (loadWord s a w).sregs = s.sregs := rfl
@[simp] theorem loadWord_l : (loadWord s a w).l = s.l := rfl
@[simp] theorem loadWord_t : (loadWord s a w).t = s.t := rfl
@[simp] theorem loadWord_m : (loadWord s a w).m = s.m := rfl
@[simp] theorem loadWord_laluc0 : (loadWord s a w).laluc0 = s.laluc0 := rfl
@[simp] theorem loadWord_taskMpc : (loadWord s a w).taskMpc = s.taskMpc := rfl
@[simp] theorem loadWord_taskPage : (loadWord s a w).taskPage = s.taskPage := rfl
@[simp] theorem loadWord_sbank : (loadWord s a w).sbank = s.sbank := rfl
@[simp] theorem loadWord_wrPend : (loadWord s a w).wrPend = s.wrPend := rfl
@[simp] theorem loadWord_wrAddr : (loadWord s a w).wrAddr = s.wrAddr := rfl
@[simp] theorem loadWord_rdPend : (loadWord s a w).rdPend = s.rdPend := rfl
@[simp] theorem loadWord_rdAddr : (loadWord s a w).rdAddr = s.rdAddr := rfl
@[simp] theorem loadWord_store : (loadWord s a w).store = s.store.write a (w ^^^ s.cfg.invMask) := rfl
@[simp] theorem loadWord_bankreg : (loadWord s a w).bankreg = s.bankreg := rfl
@[simp] theorem loadWord_wakeup : (loadWord s a w).wakeup = s.wakeup := rfl
@[simp] theorem loadWord_reqTask : (loadWord s a w).reqTask = s.reqTask := rfl
@[simp] theorem loadWord_confTask : (loadWord s a w).confTask = s.confTask := rfl
@[simp] theorem loadWord_ticks : (loadWord s a w).ticks = s.ticks := rfl
@[simp] theorem loadWord_inputs : (loadWord s a w).inputs = s.inputs := rfl
@[simp] theorem loadWord_calls : (loadWord s a w).calls = s.calls := rfl

end loadWord

section saveTask

@[simp] theorem saveTask_run : (saveTask s).run = s.run := rfl
@[simp] theorem saveTask_cfg : (saveTask s).cfg = s.cfg := rfl
@[simp] theorem saveTask_task : (saveTask s).task = s.task := rfl
@[simp] theorem saveTask_mpc : (saveTask s).mpc = s.mpc := rfl
@[simp] theorem saveTask_page : (saveTask s).page = s.page := rfl
@[simp] theorem saveTask_r : (saveTask s).r = s.r := rfl
@[simp] theorem saveTask_sregs : (saveTask s).sregs = s.sregs := rfl
@[simp] theorem saveTask_l : (saveTask s).l = s.l := rfl
@[simp] theorem saveTask_t : (saveTask s).t = s.t := rfl
@[simp] theorem saveTask_m : (saveTask s).m = s.m := rfl
@[simp] theorem saveTask_laluc0 : (saveTask s).laluc0 = s.laluc0 := rfl
@[simp] theorem saveTask_taskMpc : (saveTask s).taskMpc = set16 s.taskMpc s.task s.mpc := rfl
@[simp] theorem saveTask_taskPage : (saveTask s).taskPage = set16 s.taskPage s.task s.page := rfl
@[simp] theorem saveTask_sbank : (saveTask s).sbank = s.sbank := rfl
@[simp] theorem saveTask_wrPend : (saveTask s).wrPend = s.wrPend := rfl
@[simp] theorem saveTask_wrAddr : (saveTask s).wrAddr = s.wrAddr := rfl
@[simp] theorem saveTask_rdPend : (saveTask s).rdPend = s.rdPend := rfl
@[simp] theorem saveTask_rdAddr : (saveTask s).rdAddr = s.rdAddr := rfl
@[simp] theorem saveTask_store : (saveTask s).store = s.store := rfl
@[simp] theorem saveTask_bankreg : (saveTask s).bankreg = s.bankreg := rfl
@[simp] theorem saveTask_wakeup : (saveTask s).wakeup = s.wakeup := rfl
@[simp] theorem saveTask_reqTask : (saveTask s).reqTask = s.reqTask := rfl
@[simp] theorem saveTask_confTask : (saveTask s).confTask = s.confTask := rfl
@[simp] theorem saveTask_ticks : (saveTask s).ticks = s.ticks := rfl
@[simp] theorem saveTask_inputs : (saveTask s).inputs = s.inputs := rfl
@[simp] theorem saveTask_calls : (saveTask s).calls = s.calls := rfl

end saveTask

section loadTask

@[simp] theorem loadTask_run : (loadTask s).run = s.run := rfl
@[simp] theorem loadTask_cfg : (loadTask s).cfg = s.cfg := rfl
@[simp] theorem loadTask_task : (loadTask s).task = s.task := rfl
@[simp] theorem loadTask_mpc : (loadTask s).mpc = at16 s.taskMpc s.task := rfl
@[simp] theorem loadTask_page : (loadTask s).page = at16 s.taskPage s.task := rfl
@[simp] theorem loadTask_r : (loadTask s).r = s.r := rfl
@[simp] theorem loadTask_sregs : (loadTask s).sregs = s.sregs := rfl
@[simp] theorem loadTask_l : (loadTask s).l = s.l := rfl
@[simp] theorem loadTask_t : (loadTask s).t = s.t := rfl
@[simp] theorem loadTask_m : (loadTask s).m = s.m := rfl
@[simp] theorem loadTask_laluc0 : (loadTask s).laluc0 = s.laluc0 := rfl
@[simp] theorem loadTask_taskMpc : (loadTask s).taskMpc = s.taskMpc := rfl
@[simp] theorem loadTask_taskPage : (loadTask s).taskPage = s.taskPage := rfl
@[simp] theorem loadTask_sbank : (loadTask s).sbank = s.sbank := rfl
@[simp] theorem loadTask_wrPend : (loadTask s).wrPend = s.wrPend := rfl
@[simp] theorem loadTask_wrAddr : (loadTask s).wrAddr = s.wrAddr := rfl
@[simp] theorem loadTask_rdPend : (loadTask s).rdPend = s.rdPend := rfl
@[simp] theorem loadTask_rdAddr : (loadTask s).rdAddr = s.rdAddr := rfl
@[simp] theorem loadTask_store : (loadTask s).store = s.store := rfl
@[simp] theorem loadTask_bankreg : (loadTask s).bankreg = s.bankreg := rfl
@[simp] theorem loadTask_wakeup : (loadTask s).wakeup = s.wakeup := rfl
@[simp] theorem loadTask_reqTask : (loadTask s).reqTask = s.reqTask := rfl
@[simp] theorem loadTask_confTask : (loadTask s).confTask = s.confTask := rfl
@[simp] theorem loadTask_ticks : (loadTask s).ticks = s.ticks := rfl
@[simp] theorem loadTask_inputs : (loadTask s).inputs = s.inputs := rfl
@[simp] theorem loadTask_calls : (loadTask s).calls = s.calls := rfl

end loadTask

section softReset

@[simp] theorem softReset_run : (softReset s).run = s.run := rfl
@[simp] theorem softReset_cfg : (softReset s).cfg = s.cfg := rfl
@[simp] theorem softReset_task : (softReset s).task = 0 := rfl
@[simp] theorem softReset_mpc : (softReset s).mpc = bootMpc s.cfg 0 := rfl
@[simp] theorem softReset_page : (softReset s).page = bootPage s.cfg 0 := rfl
@[simp] theorem softReset_r : (softReset s).r = s.r := rfl
@[simp] theorem softReset_sregs : (softReset s).sregs = s.sregs := rfl
@[simp] theorem softReset_l : (softReset s).l = s.l := rfl
@[simp] theorem softReset_t : (softReset s).t = s.t := rfl
@[simp] theorem softReset_m : (softReset s).m = s.m := rfl
@[simp] theorem softReset_laluc0 : (softReset s).laluc0 = s.laluc0 := rfl
@[simp] theorem softReset_taskMpc : (softReset s).taskMpc = bootMpcs s.cfg := rfl
@[simp] theorem softReset_taskPage : (softReset s).taskPage = bootPages s.cfg := rfl
@[simp] theorem softReset_sbank : (softReset s).sbank = s.sbank := rfl
@[simp] theorem softReset_wrPend : (softReset s).wrPend = s.wrPend := rfl
@[simp] theorem softReset_wrAddr : (softReset s).wrAddr = s.wrAddr := rfl
@[simp] theorem softReset_rdPend : (softReset s).rdPend = s.rdPend := rfl
@[simp] theorem softReset_rdAddr : (softReset s).rdAddr = s.rdAddr := rfl
@[simp] theorem softReset_store : (softReset s).store = s.store := rfl
@[simp] theorem softReset_bankreg : (softReset s).bankreg = s.bankreg := rfl
@[simp] theorem softReset_wakeup : (softReset s).wakeup = s.wakeup := rfl
@[simp] theorem softReset_reqTask : (softReset s).reqTask = 0 := rfl
@[simp] theorem softReset_confTask : (softReset s).confTask = 0 := rfl
@[simp] theorem softReset_ticks : (softReset s).ticks = s.ticks := rfl
@[simp] theorem softReset_inputs : (softReset s).inputs = s.inputs := rfl
@[simp] theorem softReset_calls : (softReset s).calls = s.calls := rfl

end softReset

section writeS

variable (b : Nat) (i : RegNum) (v : Word)

@[simp] theorem writeS_run : (writeS s b i v).run = s.run := by unfold writeS; split <;> rfl
@[simp] theorem writeS_cfg : (writeS s b i v).cfg = s.cfg := by unfold writeS; split <;> rfl
@[simp] theorem writeS_task : (writeS s b i v).task = s.task := by unfold writeS; split <;> rfl
@[simp] theorem writeS_mpc : (writeS s b i v).mpc = s.mpc := by unfold writeS; split <;> rfl
@[simp] theorem writeS_page : (writeS s b i v).page = s.page := by unfold writeS; split <;> rfl
@[simp] theorem writeS_r : (writeS s b i v).r = s.r := by unfold writeS; split <;> rfl
@[simp] theorem writeS_l : (writeS s b i v).l = s.l := by unfold writeS; split <;> rfl
@[simp] theorem writeS_t : (writeS s b i v).t = s.t := by unfold writeS; split <;> rfl
@[simp] theorem writeS_m : (writeS s b i v).m = s.m := by unfold writeS; split <;> rfl
@[simp] theorem writeS_laluc0 : (writeS s b i v).laluc0 = s.laluc0 := by unfold writeS; split <;> rfl
@[simp] theorem writeS_taskMpc : (writeS s b i v).taskMpc = s.taskMpc := by unfold writeS; split <;> rfl
@[simp] theorem writeS_taskPage : (writeS s b i v).taskPage = s.taskPage := by unfold writeS; split <;> rfl
@[simp] theorem writeS_sbank : (writeS s b i v).sbank = s.sbank := by unfold writeS; split <;> rfl
@[simp] theorem writeS_wrPend : (writeS s b i v).wrPend = s.wrPend := by unfold writeS; split <;> rfl
@[simp] theorem writeS_wrAddr : (writeS s b i v).wrAddr = s.wrAddr := by unfold writeS; split <;> rfl
@[simp] theorem writeS_rdPend : (writeS s b i v).rdPend = s.rdPend := by unfold writeS; split <;> rfl
@[simp] theorem writeS_rdAddr : (writeS s b i v).rdAddr = s.rdAddr := by unfold writeS; split <;> rfl
@[simp] theorem writeS_store : (writeS s b i v).store = s.store := by unfold writeS; split <;> rfl
@[simp] theorem writeS_bankreg : (writeS s b i v).bankreg = s.bankreg := by unfold writeS; split <;> rfl
@[simp] theorem writeS_wakeup : (writeS s b i v).wakeup = s.wakeup := by unfold writeS; split <;> rfl
@[simp] theorem writeS_reqTask : (writeS s b i v).reqTask = s.reqTask := by unfold writeS; split <;> rfl
@[simp] theorem writeS_confTask : (writeS s b i v).confTask = s.confTask := by unfold writeS; split <;> rfl
@[simp] theorem writeS_ticks : (writeS s b i v).ticks = s.ticks := by unfold writeS; split <;> rfl
@[simp] theorem writeS_inputs : (writeS s b i v).inputs = s.inputs := by unfold writeS; split <;> rfl
@[simp] theorem writeS_calls : (writeS s b i v).calls = s.calls := by unfold writeS; split <;> rfl

end writeS

section writeBack

variable (v : Word)

@[simp] theorem writeBack_run : (writeBack s v).run = s.run := by unfold writeBack; split <;> (try split) <;> rfl
@[simp] theorem writeBack_cfg : (writeBack s v).cfg = s.cfg := by unfold writeBack; split <;> (try split) <;> rfl
@[simp] theorem writeBack_task : (writeBack s v).task = s.task := by unfold writeBack; split <;> (try split) <;> rfl
@[simp] theorem writeBack_mpc : (writeBack s v).mpc = s.mpc := by unfold writeBack; split <;> (try split) <;> rfl
@[simp] theorem writeBack_page : (writeBack s v).page = s.page := by unfold writeBack; split <;> (try split) <;> rfl
@[simp] theorem writeBack_r : (writeBack s v).r = s.r := by unfold writeBack; split <;> (try split) <;> rfl
@[simp] theorem writeBack_sregs : (writeBack s v).sregs = s.sregs := by unfold writeBack; split <;> (try split) <;> rfl
@[simp] theorem writeBack_l : (writeBack s v).l = s.l := by unfold writeBack; split <;> (try split) <;> rfl
@[simp] theorem writeBack_t : (writeBack s v).t = s.t := by unfold writeBack; split <;> (try split) <;> rfl
@[simp] theorem writeBack_m : (writeBack s v).m = s.m := by unfold writeBack; split <;> (try split) <;> rfl
@[simp] theorem writeBack_laluc0 : (writeBack s v).laluc0 = s.laluc0 := by unfold writeBack; split <;> (try split) <;> rfl
@[simp] theorem writeBack_taskMpc : (writeBack s v).taskMpc = s.taskMpc := by unfold writeBack; split <;> (try split) <;> rfl
@[simp] theorem writeBack_taskPage : (writeBack s v).taskPage = s.taskPage := by unfold writeBack; split <;> (try split) <;> rfl
@[simp] theorem writeBack_sbank : (writeBack s v).sbank = s.sbank := by unfold writeBack; split <;> (try split) <;> rfl
@[simp] theorem writeBack_wrAddr : (writeBack s v).wrAddr = s.wrAddr := by unfold writeBack; split <;> (try split) <;> rfl
@[simp] theorem writeBack_rdPend : (writeBack s v).rdPend = s.rdPend := by unfold writeBack; split <;> (try split) <;> rfl
@[simp] theorem writeBack_rdAddr : (writeBack s v).rdAddr = s.rdAddr := by unfold writeBack; split <;> (try split) <;> rfl
@[simp] theorem writeBack_bankreg : (writeBack s v).bankreg = s.bankreg := by unfold writeBack; split <;> (try split) <;> rfl
@[simp] theorem writeBack_wakeup : (writeBack s v).wakeup = s.wakeup := by unfold writeBack; split <;> (try split) <;> rfl
@[simp] theorem writeBack_reqTask : (writeBack s v).reqTask = s.reqTask := by unfold writeBack; split <;> (try split) <;> rfl
@[simp] theorem writeBack_confTask : (writeBack s v).confTask = s.confTask := by unfold writeBack; split <;> (try split) <;> rfl
@[simp] theorem writeBack_ticks : (writeBack s v).ticks = s.ticks := by unfold writeBack; split <;> (try split) <;> rfl
@[simp] theorem writeBack_inputs : (writeBack s v).inputs = s.inputs := by unfold writeBack; split <;> (try split) <;> rfl
@[simp] theorem writeBack_calls : (writeBack s v).calls = s.calls := by unfold writeBack; split <;> (try split) <;> rfl

end writeBack

section switchTo

variable (k : Task)

@[simp] theorem switchTo_run : (switchTo s k).run = s.run := by unfold switchTo; simp only []; split <;> rfl
@[simp] theorem switchTo_cfg : (switchTo s k).cfg = s.cfg := by unfold switchTo; simp only []; split <;> rfl
@[simp] theorem switchTo_r : (switchTo s k).r = s.r := by unfold switchTo; simp only []; split <;> rfl
@[simp] theorem switchTo_sregs : (switchTo s k).sregs = s.sregs := by unfold switchTo; simp only []; split <;> rfl
@[simp] theorem switchTo_l : (switchTo s k).l = s.l := by unfold switchTo; simp only []; split <;> rfl
@[simp] theorem switchTo_t : (switchTo s k).t = s.t := by unfold switchTo; simp only []; split <;> rfl
@[simp] theorem switchTo_m : (switchTo s k).m = s.m := by unfold switchTo; simp only []; split <;> rfl
@[simp] theorem switchTo_laluc0 : (switchTo s k).laluc0 = s.laluc0 := by unfold switchTo; simp only []; split <;> rfl
@[simp] theorem switchTo_sbank : (switchTo s k).sbank = s.sbank := by unfold switchTo; simp only []; split <;> rfl
@[simp] theorem switchTo_wrPend : (switchTo s k).wrPend = s.wrPend := by unfold switchTo; simp only []; split <;> rfl
@[simp] theorem switchTo_wrAddr : (switchTo s k).wrAddr = s.wrAddr := by unfold switchTo; simp only []; split <;> rfl
@[simp] theorem switchTo_rdPend : (switchTo s k).rdPend = s.rdPend := by unfold switchTo; simp only []; split <;> rfl
@[simp] theorem switchTo_rdAddr : (switchTo s k).rdAddr = s.rdAddr := by unfold switchTo; simp only []; split <;> rfl
@[simp] theorem switchTo_store : (switchTo s k).store = s.store := by unfold switchTo; simp only []; split <;> rfl
@[simp] theorem switchTo_bankreg : (switchTo s k).bankreg = s.bankreg := by unfold switchTo; simp only []; split <;> rfl
@[simp] theorem switchTo_wakeup : (switchTo s k).wakeup = s.wakeup := by unfold switchTo; simp only []; split <;> rfl
@[simp] theorem switchTo_reqTask : (switchTo s k).reqTask = s.reqTask := by unfold switchTo; simp only []; split <;> rfl
@[simp] theorem switchTo_confTask : (switchTo s k).confTask = s.confTask := by unfold switchTo; simp only []; split <;> rfl
@[simp] theorem switchTo_ticks : (switchTo s k).ticks = s.ticks := by unfold switchTo; simp only []; split <;> rfl
@[simp] theorem switchTo_inputs : (switchTo s k).inputs = s.inputs := by unfold switchTo; simp only []; split <;> rfl

end switchTo

section switchEvaluation

@[simp] theorem switchEvaluation_run : (switchEvaluation s).run = s.run := by unfold switchEvaluation; simp only []; split <;> simp
@[simp] theorem switchEvaluation_cfg : (switchEvaluation s).cfg = s.cfg := by unfold switchEvaluation; simp only []; split <;> simp
@[simp] theorem switchEvaluation_r : (switchEvaluation s).r = s.r := by unfold switchEvaluation; simp only []; split <;> simp
@[simp] theorem switchEvaluation_sregs : (switchEvaluation s).sregs = s.sregs := by unfold switchEvaluation; simp only []; split <;> simp
@[simp] theorem switchEvaluation_l : (switchEvaluation s).l = s.l := by unfold switchEvaluation; simp only []; split <;> simp
@[simp] theorem switchEvaluation_t : (switchEvaluation s).t = s.t := by unfold switchEvaluation; simp only []; split <;> simp
@[simp] theorem switchEvaluation_m : (switchEvaluation s).m = s.m := by unfold switchEvaluation; simp only []; split <;> simp
@[simp] theorem switchEvaluation_laluc0 : (switchEvaluation s).laluc0 = s.laluc0 := by unfold switchEvaluation; simp only []; split <;> simp
@[simp] theorem switchEvaluation_sbank : (switchEvaluation s).sbank = s.sbank := by unfold switchEvaluation; simp only []; split <;> simp
@[simp] theorem switchEvaluation_wrPend : (switchEvaluation s).wrPend = s.wrPend := by unfold switchEvaluation; simp only []; split <;> simp
@[simp] theorem switchEvaluation_wrAddr : (switchEvaluation s).wrAddr = s.wrAddr := by unfold switchEvaluation; simp only []; split <;> simp
@[simp] theorem switchEvaluation_rdPend : (switchEvaluation s).rdPend = s.rdPend := by unfold switchEvaluation; simp only []; split <;> simp
@[simp] theorem switchEvaluation_rdAddr : (switchEvaluation s).rdAddr = s.rdAddr := by unfold switchEvaluation; simp only []; split <;> simp
@[simp] theorem switchEvaluation_store : (switchEvaluation s).store = s.store := by unfold switchEvaluation; simp only []; split <;> simp
@[simp] theorem switchEvaluation_bankreg : (switchEvaluation s).bankreg = s.bankreg := by unfold switchEvaluation; simp only []; split <;> simp
@[simp] theorem switchEvaluation_wakeup : (switchEvaluation s).wakeup = s.wakeup := by unfold switchEvaluation; simp only []; split <;> simp
@[simp] theorem switchEvaluation_reqTask : (switchEvaluation s).reqTask = s.reqTask := by unfold switchEvaluation; simp only []; split <;> simp
@[simp] theorem switchEvaluation_ticks : (switchEvaluation s).ticks = s.ticks := by unfold switchEvaluation; simp only []; split <;> simp
@[simp] theorem switchEvaluation_inputs : (switchEvaluation s).inputs = s.inputs := by unfold switchEvaluation; simp only []; split <;> simp

end switchEvaluation

end Sys2Proof.Machine
end

