-- ==== Sys2Proof/Laws/Store.lean ====
section
/-! SUPPORT. The microcode store: reading after writing, and the canonical form that every memory operation keeps. -/

namespace Sys2Proof.Machine

/-- Every address of the list is above `a`. -/
def Memory.above (a : Nat) (st : Memory) : Prop := ∀ p ∈ st, a < p.1

theorem Memory.wf_cons {a : Nat} {v : UWord} {rest : Memory} :
    Memory.wf ((a, v) :: rest) = true ↔ Memory.above a rest ∧ Memory.wf rest = true := by
  induction rest generalizing a v with
  | nil => simp [Memory.wf, Memory.above]
  | cons p rest ih =>
    obtain ⟨b, w⟩ := p
    rw [Memory.wf, Bool.and_eq_true, decide_eq_true_eq]
    constructor
    · rintro ⟨hab, h⟩
      refine ⟨?_, h⟩
      intro q hq
      rcases List.mem_cons.mp hq with rfl | hq
      · exact hab
      · exact Nat.lt_trans hab ((ih.mp h).1 q hq)
    · rintro ⟨h1, h2⟩
      exact ⟨h1 (b, w) (by simp), h2⟩

theorem Memory.read_of_above {a : Nat} {st : Memory} (h : Memory.above a st) : Memory.read st a = none := by
  cases st with
  | nil => rfl
  | cons p rest =>
    obtain ⟨b, w⟩ := p
    have hb : a < b := h (b, w) (by simp)
    simp [Memory.read, Nat.ne_of_lt hb, hb]

@[simp] theorem Memory.read_nil (a : Nat) : Memory.read [] a = none := rfl

/-- Reading after a write: the written value at its address, the old value elsewhere. -/
theorem Memory.read_write (st : Memory) (h : Memory.wf st = true) (a b : Nat) (v : UWord) :
    (Memory.write st a v).read b = if b = a then some v else Memory.read st b := by
  induction st with
  | nil =>
    simp only [Memory.write, Memory.read]
    split <;> simp
  | cons p rest ih =>
    obtain ⟨c, w⟩ := p
    have hrest := (Memory.wf_cons.mp h).2
    have habove := (Memory.wf_cons.mp h).1
    simp only [Memory.write]
    split
    · next hac =>
      subst hac
      simp only [Memory.read]
      split <;> simp
    · next hac =>
      split
      · next hlt =>
        rw [Memory.read]
        split
        · rfl
        · next hba =>
          split
          · next hblt =>
            have hbc : b < c := Nat.lt_trans hblt hlt
            simp [Memory.read, Nat.ne_of_lt hbc, hbc]
          · rfl
      · next hnlt =>
        rw [Memory.read, ih hrest, Memory.read]
        split
        · next hbc => simp [hbc, Ne.symm hac]
        · next hbc =>
          split
          · next hlt =>
            have : b ≠ a := by omega
            simp [this]
          · rfl

theorem Memory.read_write_same (st : Memory) (h : Memory.wf st = true) (a : Nat) (v : UWord) :
    (Memory.write st a v).read a = some v := by
  simp [Memory.read_write st h]

theorem Memory.read_write_other (st : Memory) (h : Memory.wf st = true) {a b : Nat} (v : UWord) (hab : b ≠ a) :
    (Memory.write st a v).read b = Memory.read st b := by
  simp [Memory.read_write st h, hab]

theorem Memory.above_write {st : Memory} {a b : Nat} {v : UWord} (h : Memory.above b st) (hab : b < a) :
    Memory.above b (Memory.write st a v) := by
  induction st with
  | nil => intro q hq; simp only [Memory.write, List.mem_singleton] at hq; subst hq; exact hab
  | cons p rest ih =>
    obtain ⟨c, w⟩ := p
    have hc : b < c := h (c, w) (by simp)
    have hr : Memory.above b rest := fun q hq => h q (by simp [hq])
    simp only [Memory.write]
    split
    · intro q hq
      rcases List.mem_cons.mp hq with rfl | hq
      · exact hab
      · exact hr q hq
    · split
      · intro q hq
        rcases List.mem_cons.mp hq with rfl | hq
        · exact hab
        · exact h q hq
      · intro q hq
        rcases List.mem_cons.mp hq with rfl | hq
        · exact hc
        · exact ih hr q hq

/-- A write keeps the canonical form. -/
theorem Memory.wf_write (st : Memory) (a : Nat) (v : UWord) (h : Memory.wf st = true) :
    Memory.wf (Memory.write st a v) = true := by
  induction st with
  | nil => rfl
  | cons p rest ih =>
    obtain ⟨c, w⟩ := p
    obtain ⟨habove, hrest⟩ := Memory.wf_cons.mp h
    simp only [Memory.write]
    split
    · next hac => subst hac; exact Memory.wf_cons.mpr ⟨habove, hrest⟩
    · next hac =>
      split
      · next hlt =>
        refine Memory.wf_cons.mpr ⟨?_, h⟩
        intro q hq
        rcases List.mem_cons.mp hq with rfl | hq
        · exact hlt
        · exact Nat.lt_trans hlt (habove q hq)
      · exact Memory.wf_cons.mpr ⟨Memory.above_write habove (by omega), ih hrest⟩

theorem wf_loadImage (base size : Nat) (img : List (Nat × UWord)) (st : Memory) (h : Memory.wf st = true) :
    Memory.wf (loadImage base size img st) = true := by
  induction img generalizing st with
  | nil => exact h
  | cons p rest ih =>
    obtain ⟨a, v⟩ := p
    simp only [loadImage]
    split
    · exact ih _ (Memory.wf_write st _ _ h)
    · exact ih _ h

/-- The store of a cold reset has the canonical form. -/
theorem wf_bootStore (c : Config) : Memory.wf (bootStore c) = true :=
  wf_loadImage _ _ _ _ (wf_loadImage _ _ _ _ rfl)

end Sys2Proof.Machine
end

