-- ==== Sys2Proof/Laws/Word.lean ====
section
/-! SUPPORT. Reading an entry of a table after replacing one. -/

namespace Sys2Proof

theorem at16_set16 {α : Type} (v : Vector α 16) (k j : Task) (a : α) :
    at16 (set16 v k a) j = if j = k then a else at16 v j := by
  unfold at16 set16
  rw [Vector.getElem_set]
  simp only [BitVec.toNat_inj, eq_comm]

@[simp] theorem at16_set16_same {α : Type} (v : Vector α 16) (k : Task) (a : α) : at16 (set16 v k a) k = a := by
  simp [at16_set16]

theorem at16_set16_other {α : Type} (v : Vector α 16) {k j : Task} (a : α) (h : j ≠ k) :
    at16 (set16 v k a) j = at16 v j := by
  simp [at16_set16, h]

theorem at32_set32 {α : Type} (v : Vector α 32) (i j : RegNum) (a : α) :
    at32 (set32 v i a) j = if j = i then a else at32 v j := by
  unfold at32 set32
  rw [Vector.getElem_set]
  simp only [BitVec.toNat_inj, eq_comm]

@[simp] theorem at32_set32_same {α : Type} (v : Vector α 32) (i : RegNum) (a : α) : at32 (set32 v i a) i = a := by
  simp [at32_set32]

theorem at32_set32_other {α : Type} (v : Vector α 32) {i j : RegNum} (a : α) (h : j ≠ i) :
    at32 (set32 v i a) j = at32 v j := by
  simp [at32_set32, h]

@[simp] theorem at16_replicate {α : Type} (a : α) (k : Task) : at16 (Vector.replicate 16 a) k = a := by
  simp [at16]

@[simp] theorem at32_replicate {α : Type} (a : α) (i : RegNum) : at32 (Vector.replicate 32 a) i = a := by
  simp [at32]

@[simp] theorem at16_ofFn {α : Type} (f : Fin 16 → α) (k : Task) : at16 (Vector.ofFn f) k = f k.toFin := by
  simp [at16]

end Sys2Proof
end

