-- ==== Sys2Proof/Laws/Ports.lean ====
section
/-! SUPPORT. What a dispatched operation, installed or default, can do to a cycle: everything else is unchanged. -/

namespace Sys2Proof.Machine

/-- What no dispatched operation changes, and the ranges that it keeps. -/
structure PortFrame (c c' : Cyc) : Prop where
  d        : c'.d = c.d
  alu      : c'.alu = c.alu
  run      : c'.st.run = c.st.run
  cfg      : c'.st.cfg = c.st.cfg
  task     : c'.st.task = c.st.task
  mpc      : c'.st.mpc = c.st.mpc
  l        : c'.st.l = c.st.l
  t        : c'.st.t = c.st.t
  m        : c'.st.m = c.st.m
  laluc0   : c'.st.laluc0 = c.st.laluc0
  taskMpc  : c'.st.taskMpc = c.st.taskMpc
  taskPage : c'.st.taskPage = c.st.taskPage
  store    : c'.st.store = c.st.store
  bankreg  : c'.st.bankreg = c.st.bankreg
  confTask : c'.st.confTask = c.st.confTask
  ticks    : c'.st.ticks = c.st.ticks
  inputs   : c'.st.inputs = c.st.inputs
  sregs    : c'.st.sregs.length = c.st.sregs.length
  page     : c.st.page < 2 ^ c.st.cfg.pageBits → c'.st.page < 2 ^ c.st.cfg.pageBits
  sbank    : (∀ k, at16 c.st.sbank k < c.st.cfg.sBanks) → ∀ k, at16 c'.st.sbank k < c.st.cfg.sBanks

theorem PortFrame.refl (c : Cyc) : PortFrame c c := by
  constructor <;> first | rfl | exact id

theorem PortFrame.trans {a b c : Cyc} (h : PortFrame a b) (k : PortFrame b c) : PortFrame a c where
  d := k.d.trans h.d
  alu := k.alu.trans h.alu
  run := k.run.trans h.run
  cfg := k.cfg.trans h.cfg
  task := k.task.trans h.task
  mpc := k.mpc.trans h.mpc
  l := k.l.trans h.l
  t := k.t.trans h.t
  m := k.m.trans h.m
  laluc0 := k.laluc0.trans h.laluc0
  taskMpc := k.taskMpc.trans h.taskMpc
  taskPage := k.taskPage.trans h.taskPage
  store := k.store.trans h.store
  bankreg := k.bankreg.trans h.bankreg
  confTask := k.confTask.trans h.confTask
  ticks := k.ticks.trans h.ticks
  inputs := k.inputs.trans h.inputs
  sregs := k.sregs.trans h.sregs
  page := fun x => h.cfg ▸ k.page (h.cfg.symm ▸ h.page x)
  sbank := fun x => h.cfg ▸ k.sbank (h.cfg.symm ▸ h.sbank x)

theorem andBus_frame (v : Word) (c : Cyc) : PortFrame c (andBus v c) := by
  constructor <;> first | rfl | exact id

theorem orNext_frame (v : Word) (c : Cyc) : PortFrame c (orNext v c) := by
  constructor <;> first | rfl | exact id

theorem logCall_frame (k : Call) (c : Cyc) : PortFrame c (mapState (fun s => logCall s k) c) := by
  constructor <;> first | rfl | exact id

theorem writeR_frame (i : RegNum) (v : Word) (c : Cyc) : PortFrame c (mapState (fun s => writeR s i v) c) := by
  constructor <;> first | rfl | exact id

theorem writeS_length (s : State) (b : Nat) (i : RegNum) (v : Word) :
    (writeS s b i v).sregs.length = s.sregs.length := by
  unfold writeS
  split <;> simp

theorem writeS_frame (b : Nat) (i : RegNum) (v : Word) (c : Cyc) :
    PortFrame c (mapState (fun s => writeS s b i v) c) := by
  constructor <;> first | rfl | exact writeS_length _ _ _ _ | simp [mapState]

theorem setSBank_frame (k : Task) (b : Nat) (c : Cyc) (h : b < c.st.cfg.sBanks) :
    PortFrame c (mapState (fun s => setSBank s k b) c) := by
  constructor <;> first | rfl | exact id | skip
  intro hs j
  simp only [mapState, setSBank_sbank, at16_set16]
  split
  · exact h
  · exact hs j

theorem setPage_frame (p : Nat) (c : Cyc) : PortFrame c (mapState (fun s => setPage s p) c) := by
  constructor <;> first | rfl | exact id | skip
  exact fun _ => Nat.mod_lt _ (Nat.two_pow_pos _)

/-- What the arbitration answers: the highest wakeup bit becomes the requested task, or the mask is empty and the cycle
stops with the fatal error of R272. -/
theorem arbitrate_cases (c : Cyc) :
    (∃ j, highestWakeup c.st.wakeup = some j ∧ arbitrate c = .ok (mapState (fun s => { s with reqTask := j }) c)) ∨
      (highestWakeup c.st.wakeup = none ∧ arbitrate c = .error (.fatal (emptyMaskFatal c.st))) := by
  unfold arbitrate
  split
  · next j h => exact .inl ⟨j, h, rfl⟩
  · next h => exact .inr ⟨h, rfl⟩

theorem arbitrate_frame {c c' : Cyc} (h : arbitrate c = .ok c') : PortFrame c c' := by
  rcases arbitrate_cases c with ⟨j, _, hj⟩ | ⟨_, hn⟩
  · rw [hj] at h
    cases h
    constructor <;> first | rfl | exact id
  · rw [hn] at h
    cases h

/-- From a sequence that answers a value, the first part's value and the rest. -/
theorem bind_ok {ε α β : Type} {x : Except ε α} {f : α → Except ε β} {b : β} (h : (x >>= f) = .ok b) :
    ∃ a, x = .ok a ∧ f a = .ok b := by
  cases x with
  | ok a => exact ⟨a, rfl, h⟩
  | error e => cases h

theorem ite_ok {ε α : Type} {p : Prop} [Decidable p] {x : α} {y : Except ε α} {b : α} (hy : ∀ b, y ≠ .ok b)
    (h : (if p then .ok x else y) = .ok b) : p ∧ x = b := by
  split at h
  · next hp => exact ⟨hp, by cases h; rfl⟩
  · exact absurd h (hy b)

theorem outsidePorts_ne (c : Cyc) : outsidePorts ≠ .ok c := by
  intro h
  cases h

/-- What a call that answers a value does: one answer more, and no effect but the record of the call. -/
theorem runQuery_ok {ph : Phase} {q : Query} {c c' : Cyc} (h : runQuery ph c q = .ok c') :
    ∃ v, c' = answered v c ∨ ∃ k, c' = answered v (mapState (fun s => logCall s k) c) := by
  cases q with
  | marStall i =>
    obtain ⟨n, _, h⟩ := bind_ok h
    cases h
    exact ⟨_, .inl rfl⟩
  | readMem | mouse | disp => cases h; exact ⟨_, .inr ⟨_, rfl⟩⟩
  | writeStall | readStall | wakeups | requestedTask => cases h; exact ⟨_, .inl rfl⟩

theorem answered_frame (v : Word) (c : Cyc) : PortFrame c (answered v c) := by
  constructor <;> first | rfl | exact id

theorem runQuery_frame {ph : Phase} {q : Query} {c c' : Cyc} (h : runQuery ph c q = .ok c') : PortFrame c c' := by
  obtain ⟨v, rfl | ⟨k, rfl⟩⟩ := runQuery_ok h
  · exact answered_frame _ _
  · exact (logCall_frame _ _).trans (answered_frame _ _)

/-- An act of an installed operation changes nothing beyond its port. -/
theorem runAct_frame {ph : Phase} {fam : Family} {a : Act} {c c' : Cyc} (h : runAct ph fam c a = .ok c') :
    PortFrame c c' := by
  induction a generalizing c c' with
  | andBus v =>
    obtain ⟨x, _, h⟩ := bind_ok h
    obtain ⟨_, rfl⟩ := ite_ok outsidePorts_ne h
    exact andBus_frame _ _
  | setRsel v =>
    obtain ⟨x, _, h⟩ := bind_ok h
    obtain ⟨_, rfl⟩ := ite_ok outsidePorts_ne h
    constructor <;> first | rfl | exact id
  | orNext v =>
    obtain ⟨x, _, h⟩ := bind_ok h
    obtain ⟨_, rfl⟩ := ite_ok outsidePorts_ne h
    exact orNext_frame _ _
  | writeR i v =>
    obtain ⟨n, _, h⟩ := bind_ok h
    obtain ⟨x, _, h⟩ := bind_ok h
    cases h
    exact writeR_frame _ _ _
  | writeS b i v =>
    obtain ⟨bn, _, h⟩ := bind_ok h
    obtain ⟨n, _, h⟩ := bind_ok h
    obtain ⟨x, _, h⟩ := bind_ok h
    obtain ⟨_, rfl⟩ := ite_ok outsidePorts_ne h
    exact writeS_frame _ _ _ _
  | setSBank k b =>
    obtain ⟨kn, _, h⟩ := bind_ok h
    obtain ⟨bn, _, h⟩ := bind_ok h
    obtain ⟨hb, rfl⟩ := ite_ok outsidePorts_ne h
    exact setSBank_frame _ _ _ hb
  | requestURamWrite =>
    obtain ⟨_, rfl⟩ := ite_ok outsidePorts_ne h
    constructor <;> first | rfl | exact id
  | requestURamRead =>
    obtain ⟨_, rfl⟩ := ite_ok outsidePorts_ne h
    constructor <;> first | rfl | exact id
  | setPage p =>
    obtain ⟨x, _, h⟩ := bind_ok h
    obtain ⟨_, rfl⟩ := ite_ok outsidePorts_ne h
    exact setPage_frame _ _
  | setMagic =>
    obtain ⟨_, rfl⟩ := ite_ok outsidePorts_ne h
    constructor <;> first | rfl | exact id
  | loadMar i v =>
    obtain ⟨n, _, h⟩ := bind_ok h
    obtain ⟨x, _, h⟩ := bind_ok h
    cases h
    exact logCall_frame _ _
  | writeMem v =>
    obtain ⟨x, _, h⟩ := bind_ok h
    cases h
    exact logCall_frame _ _
  | andReadMem =>
    obtain ⟨_, rfl⟩ := ite_ok outsidePorts_ne h
    exact (logCall_frame _ _).trans (andBus_frame _ _)
  | ask q => exact runQuery_frame h
  | device k v =>
    obtain ⟨x, _, h⟩ := bind_ok h
    cases h
    exact logCall_frame _ _
  | wake k =>
    obtain ⟨x, _, h⟩ := bind_ok h
    cases h
    constructor <;> first | rfl | exact id
  | unwake k =>
    obtain ⟨x, _, h⟩ := bind_ok h
    cases h
    constructor <;> first | rfl | exact id
  | arbitrate => exact arbitrate_frame h
  | onlyIf k a ih =>
    obtain ⟨z, _, h⟩ := bind_ok h
    split at h
    · exact ih h
    · cases h
      exact PortFrame.refl _
  | outside => cases h

/-- An installed operation changes nothing beyond its ports. -/
theorem runActs_frame {ph : Phase} {fam : Family} {acts : List Act} {c c' : Cyc}
    (h : runActs ph fam acts c = .ok c') : PortFrame c c' := by
  induction acts generalizing c with
  | nil => cases h; exact PortFrame.refl _
  | cons a rest ih =>
    unfold runActs at h
    split at h
    · next h1 => exact (runAct_frame h1).trans (ih h)
    · cases h

/-- A dispatch changes nothing beyond the ports, if its default operation does not. -/
theorem dispatch_frame {ph : Phase} {fam : Family} {code : Nat} {dflt : Cyc → Except Stop Cyc} {c c' : Cyc}
    (hd : dflt c = .ok c' → PortFrame c c') (h : dispatch ph fam code dflt c = .ok c') : PortFrame c c' := by
  unfold dispatch at h
  split at h
  · exact runActs_frame h
  · cases h; exact PortFrame.refl _
  · cases h
  · exact hd h

/-- The bus-source step of a phase changes nothing beyond the ports. -/
theorem runBs_frame {ph : Phase} {c c' : Cyc} (h : runBs ph c = .ok c') : PortFrame c c' := by
  unfold runBs at h
  split at h
  · cases h; exact PortFrame.refl _
  · cases ph with
    | early =>
      refine dispatch_frame ?_ h
      intro h
      unfold bsEarlyDefault at h
      split at h <;> cases h
      · exact andBus_frame _ _
      · exact andBus_frame _ _
      · exact (logCall_frame _ _).trans (andBus_frame _ _)
      · exact (logCall_frame _ _).trans (andBus_frame _ _)
      · exact (logCall_frame _ _).trans (andBus_frame _ _)
      · exact PortFrame.refl _
    | late =>
      refine dispatch_frame ?_ h
      intro h
      unfold bsLateDefault at h
      split at h <;> cases h
      · exact writeR_frame _ _ _
      · exact PortFrame.refl _

/-- The F1 step of a phase changes nothing beyond the ports. -/
theorem runF1_frame {ph : Phase} {c c' : Cyc} (h : runF1 ph c = .ok c') : PortFrame c c' := by
  unfold runF1 at h
  split at h
  · cases h; exact PortFrame.refl _
  · cases ph with
    | early =>
      refine dispatch_frame ?_ h
      intro h
      unfold f1EarlyDefault at h
      split at h
      · exact arbitrate_frame h
      · cases h; exact PortFrame.refl _
    | late =>
      refine dispatch_frame ?_ h
      intro h
      unfold f1LateDefault at h
      split at h <;> cases h
      · exact logCall_frame _ _
      · exact PortFrame.refl _

theorem branchIf_frame (b : Bool) (c : Cyc) : PortFrame c (branchIf b c) := by
  unfold branchIf
  split
  · exact orNext_frame _ _
  · exact PortFrame.refl _

/-- The F2 step of a phase changes nothing beyond the ports. -/
theorem runF2_frame {ph : Phase} {c c' : Cyc} (h : runF2 ph c = .ok c') : PortFrame c c' := by
  unfold runF2 at h
  split at h
  · cases h; exact PortFrame.refl _
  · cases ph with
    | early =>
      refine dispatch_frame ?_ h
      intro h
      cases h
      exact PortFrame.refl _
    | late =>
      refine dispatch_frame ?_ h
      intro h
      unfold f2LateDefault at h
      split at h <;> cases h
      · exact branchIf_frame _ _
      · exact branchIf_frame _ _
      · exact branchIf_frame _ _
      · exact orNext_frame _ _
      · exact branchIf_frame _ _
      · exact logCall_frame _ _
      · exact PortFrame.refl _

end Sys2Proof.Machine
end

