-- ==== Sys2Proof/Laws/Cycle.lean ====
section
/-! SUPPORT. What each part of a microcycle can do, said once. -/

namespace Sys2Proof.Machine

/-- Every meaning is the microcycle of the whole word. -/
theorem exec_eq_microcycle (i : Instr) (s : State) : exec i s = microcycle (instrFields i) s := by
  cases i <;> rfl

/-- What the pending read of step 4a answers, if it answers: nothing changed, or a value on the bus and the request done. -/
theorem readPerform_ok {c c' : Cyc} (h : readPerform c = .ok c') :
    (c.st.rdPend = false ∧ c' = c) ∨
      ∃ v, c.st.rdPend = true ∧ ramRomsel c.st.rdAddr = false ∧
        uRamRead c.st (ramBank c.st.rdAddr) (ramWord c.st.rdAddr) (ramHalf c.st.rdAddr) = .ok v ∧
        c' = andBus v (mapState (fun s => { s with rdPend := false }) c) := by
  unfold readPerform at h
  split at h
  · next hp =>
    split at h
    · cases h
    · next hr =>
      split at h
      · next v hv =>
        cases h
        exact .inr ⟨v, hp, by simpa using hr, hv, rfl⟩
      · cases h
  · next hp => cases h; exact .inl ⟨by simpa using hp, rfl⟩

theorem readPerform_frame {c c' : Cyc} (h : readPerform c = .ok c') : PortFrame c c' := by
  rcases readPerform_ok h with ⟨_, rfl⟩ | ⟨v, _, _, _, rfl⟩
  · exact PortFrame.refl _
  · constructor <;> first | rfl | exact id

theorem constantPath_frame (c : Cyc) : PortFrame c (constantPath c) := by
  unfold constantPath
  split
  · exact andBus_frame _ _
  · exact PortFrame.refl _

/-- The early phase, if it answers, went through its four parts. -/
theorem earlyPhase_ok {d : Microword} {s : State} {c : Cyc} (h : earlyPhase d s = .ok c) :
    ∃ c0 c1 c2, readPerform (startCycle d s) = .ok c0 ∧ runF2 .early (constantPath c0) = .ok c1 ∧
      runBs .early c1 = .ok c2 ∧ runF1 .early c2 = .ok c := by
  unfold earlyPhase at h
  obtain ⟨c0, h0, h⟩ := bind_ok h
  obtain ⟨c1, h1, h⟩ := bind_ok h
  obtain ⟨c2, h2, h⟩ := bind_ok h
  exact ⟨c0, c1, c2, h0, h1, h2, h⟩

/-- The early phase changes nothing beyond the ports. -/
theorem earlyPhase_frame {d : Microword} {s : State} {c : Cyc} (h : earlyPhase d s = .ok c) :
    PortFrame (startCycle d s) c := by
  obtain ⟨c0, c1, c2, h0, h1, h2, h3⟩ := earlyPhase_ok h
  exact (((readPerform_frame h0).trans (constantPath_frame c0)).trans (runF2_frame h1)).trans
    ((runBs_frame h2).trans (runF1_frame h3))

/-- The late phase changes nothing beyond the ports. -/
theorem latePhase_frame {c c' : Cyc} (h : latePhase c = .ok c') : PortFrame c c' := by
  unfold latePhase at h
  obtain ⟨c1, h1, h⟩ := bind_ok h
  obtain ⟨c2, h2, h⟩ := bind_ok h
  exact ((runF1_frame h1).trans (runF2_frame h2)).trans (runBs_frame h)

/-- A cycle that answers a state went through its two phases, and the state is the committed one with the next address. -/
theorem cycleBody_ok {d : Microword} {s t : State} (h : cycleBody d s = .ok t) :
    ∃ c c', earlyPhase d s = .ok c ∧ latePhase (aluPhase c) = .ok c' ∧
      t = nextAddress d c'.nmod (commit d (cycleAlu c) c.bus c'.st) := by
  unfold cycleBody at h
  obtain ⟨c, h1, h⟩ := bind_ok h
  obtain ⟨c', h2, h⟩ := bind_ok h
  cases h
  exact ⟨c, c', h1, h2, rfl⟩

/-- A cycle whose two phases answer. -/
theorem cycleBody_of_phases {d : Microword} {s : State} {c c' : Cyc} (h1 : earlyPhase d s = .ok c)
    (h2 : latePhase (aluPhase c) = .ok c') :
    cycleBody d s = .ok (nextAddress d c'.nmod (commit d (cycleAlu c) c.bus c'.st)) := by
  unfold cycleBody
  rw [h1]
  change (latePhase (aluPhase c) >>= _) = _
  rw [h2]
  rfl

/-- All that a microcycle can do: nothing (a halted core or a stalled word), a whole cycle, a fatal error, or a stop. -/
theorem microcycle_cases (d : Microword) (s : State) :
    ((s.run ≠ .running ∨ stalled d s = true) ∧ microcycle d s = .next s) ∨
      (s.run = .running ∧ stalled d s = false ∧
        ((∃ t, cycleBody d s = .ok t ∧ microcycle d s = .next t) ∨
          (∃ f, cycleBody d s = .error (.fatal f) ∧ microcycle d s = .next (takeFatal s f)) ∨
          (∃ e, cycleBody d s = .error (.fault e) ∧ microcycle d s = .fault e) ∨
          (∃ r, cycleBody d s = .error (.refused r) ∧ microcycle d s = .refused r))) := by
  unfold microcycle
  split
  · next f hf => exact .inl ⟨.inl (by simp [hf]), rfl⟩
  · next hr =>
    split
    · next hs => exact .inl ⟨.inr hs, rfl⟩
    · next hs =>
      refine .inr ⟨hr, by simpa using hs, ?_⟩
      cases hb : cycleBody d s with
      | ok t => exact .inl ⟨t, rfl, rfl⟩
      | error e =>
        cases e with
        | fatal f => exact .inr (.inl ⟨f, rfl, rfl⟩)
        | fault e => exact .inr (.inr (.inl ⟨e, rfl, rfl⟩))
        | refused r => exact .inr (.inr (.inr ⟨r, rfl, rfl⟩))

/-- A cycle of a running core that does not stall and whose two phases answer. -/
theorem microcycle_of_phases {d : Microword} {s : State} {c c' : Cyc} (hr : s.run = .running) (hs : stalled d s = false)
    (h1 : earlyPhase d s = .ok c) (h2 : latePhase (aluPhase c) = .ok c') :
    microcycle d s = .next (nextAddress d c'.nmod (commit d (cycleAlu c) c.bus c'.st)) := by
  unfold microcycle
  rw [hr]
  simp only [hs, Bool.false_eq_true, if_false, cycleBody_of_phases h1 h2, cycleOutcome]

/-- What the write-back does to the store: one word written, or nothing. -/
theorem writeBack_store (s : State) (v : Word) :
    (writeBack s v).store =
      match s.wrPend, bankInRange s.cfg (ramBank s.wrAddr) with
      | true, some b => s.store.write (ramAddr s.cfg b (ramWord s.wrAddr)) ((s.m ++ v) ^^^ s.cfg.invMask)
      | _, _ => s.store := by
  unfold writeBack
  cases hw : s.wrPend with
  | false => rfl
  | true =>
    simp only [if_true]
    cases hb : bankInRange s.cfg (ramBank s.wrAddr) <;> simp

/-- After step 7 no write is pending. -/
@[simp] theorem writeBack_wrPend (s : State) (v : Word) : (writeBack s v).wrPend = false := by
  unfold writeBack
  cases hw : s.wrPend with
  | false => simp [hw]
  | true =>
    simp only [if_true]
    cases hb : bankInRange s.cfg (ramBank s.wrAddr) <;> simp

/-- The write-back keeps the canonical form of the store. -/
theorem writeBack_wf (s : State) (v : Word) (h : Memory.wf s.store = true) : Memory.wf (writeBack s v).store = true := by
  rw [writeBack_store]
  split
  · exact Memory.wf_write _ _ _ h
  · exact h

section commitFields

variable (d : Microword) (o : AluOut) (b : Word) (s : State)

theorem commitL_l : (commitL o s).l = o.alu := by unfold commitL; simp only []; split <;> simp
theorem commitL_laluc0 : (commitL o s).laluc0 = latchedCarry o := by unfold commitL; simp only []; split <;> simp
theorem commitL_m : (commitL o s).m = if ramRelated s.cfg s.task then o.alu else s.m := by
  unfold commitL; simp only []; split <;> simp
theorem commitL_length : (commitL o s).sregs.length = s.sregs.length := by
  unfold commitL; simp only []; split <;> simp [writeS_length]

@[simp] theorem commitL_run : (commitL o s).run = s.run := by unfold commitL; simp only []; split <;> simp
@[simp] theorem commitL_cfg : (commitL o s).cfg = s.cfg := by unfold commitL; simp only []; split <;> simp
@[simp] theorem commitL_task : (commitL o s).task = s.task := by unfold commitL; simp only []; split <;> simp
@[simp] theorem commitL_mpc : (commitL o s).mpc = s.mpc := by unfold commitL; simp only []; split <;> simp
@[simp] theorem commitL_page : (commitL o s).page = s.page := by unfold commitL; simp only []; split <;> simp
@[simp] theorem commitL_r : (commitL o s).r = s.r := by unfold commitL; simp only []; split <;> simp
@[simp] theorem commitL_taskMpc : (commitL o s).taskMpc = s.taskMpc := by unfold commitL; simp only []; split <;> simp
@[simp] theorem commitL_taskPage : (commitL o s).taskPage = s.taskPage := by unfold commitL; simp only []; split <;> simp
@[simp] theorem commitL_sbank : (commitL o s).sbank = s.sbank := by unfold commitL; simp only []; split <;> simp
@[simp] theorem commitL_wrPend : (commitL o s).wrPend = s.wrPend := by unfold commitL; simp only []; split <;> simp
@[simp] theorem commitL_wrAddr : (commitL o s).wrAddr = s.wrAddr := by unfold commitL; simp only []; split <;> simp
@[simp] theorem commitL_rdPend : (commitL o s).rdPend = s.rdPend := by unfold commitL; simp only []; split <;> simp
@[simp] theorem commitL_rdAddr : (commitL o s).rdAddr = s.rdAddr := by unfold commitL; simp only []; split <;> simp
@[simp] theorem commitL_store : (commitL o s).store = s.store := by unfold commitL; simp only []; split <;> simp
@[simp] theorem commitL_bankreg : (commitL o s).bankreg = s.bankreg := by unfold commitL; simp only []; split <;> simp
@[simp] theorem commitL_wakeup : (commitL o s).wakeup = s.wakeup := by unfold commitL; simp only []; split <;> simp
@[simp] theorem commitL_reqTask : (commitL o s).reqTask = s.reqTask := by unfold commitL; simp only []; split <;> simp
@[simp] theorem commitL_confTask : (commitL o s).confTask = s.confTask := by unfold commitL; simp only []; split <;> simp
@[simp] theorem commitL_ticks : (commitL o s).ticks = s.ticks := by unfold commitL; simp only []; split <;> simp
@[simp] theorem commitL_inputs : (commitL o s).inputs = s.inputs := by unfold commitL; simp only []; split <;> simp
@[simp] theorem commitL_calls : (commitL o s).calls = s.calls := by unfold commitL; simp only []; split <;> simp
@[simp] theorem commitL_t : (commitL o s).t = s.t := by unfold commitL; simp only []; split <;> simp

@[simp] theorem commit_run : (commit d o b s).run = s.run := by unfold commit; simp only []; split <;> split <;> simp
@[simp] theorem commit_cfg : (commit d o b s).cfg = s.cfg := by unfold commit; simp only []; split <;> split <;> simp
@[simp] theorem commit_task : (commit d o b s).task = s.task := by unfold commit; simp only []; split <;> split <;> simp
@[simp] theorem commit_mpc : (commit d o b s).mpc = s.mpc := by unfold commit; simp only []; split <;> split <;> simp
@[simp] theorem commit_page : (commit d o b s).page = s.page := by unfold commit; simp only []; split <;> split <;> simp
@[simp] theorem commit_r : (commit d o b s).r = s.r := by unfold commit; simp only []; split <;> split <;> simp
@[simp] theorem commit_taskMpc : (commit d o b s).taskMpc = s.taskMpc := by unfold commit; simp only []; split <;> split <;> simp
@[simp] theorem commit_taskPage : (commit d o b s).taskPage = s.taskPage := by unfold commit; simp only []; split <;> split <;> simp
@[simp] theorem commit_sbank : (commit d o b s).sbank = s.sbank := by unfold commit; simp only []; split <;> split <;> simp
@[simp] theorem commit_wrPend : (commit d o b s).wrPend = s.wrPend := by unfold commit; simp only []; split <;> split <;> simp
@[simp] theorem commit_wrAddr : (commit d o b s).wrAddr = s.wrAddr := by unfold commit; simp only []; split <;> split <;> simp
@[simp] theorem commit_rdPend : (commit d o b s).rdPend = s.rdPend := by unfold commit; simp only []; split <;> split <;> simp
@[simp] theorem commit_rdAddr : (commit d o b s).rdAddr = s.rdAddr := by unfold commit; simp only []; split <;> split <;> simp
@[simp] theorem commit_store : (commit d o b s).store = s.store := by unfold commit; simp only []; split <;> split <;> simp
@[simp] theorem commit_bankreg : (commit d o b s).bankreg = s.bankreg := by unfold commit; simp only []; split <;> split <;> simp
@[simp] theorem commit_wakeup : (commit d o b s).wakeup = s.wakeup := by unfold commit; simp only []; split <;> split <;> simp
@[simp] theorem commit_reqTask : (commit d o b s).reqTask = s.reqTask := by unfold commit; simp only []; split <;> split <;> simp
@[simp] theorem commit_confTask : (commit d o b s).confTask = s.confTask := by unfold commit; simp only []; split <;> split <;> simp
@[simp] theorem commit_ticks : (commit d o b s).ticks = s.ticks := by unfold commit; simp only []; split <;> split <;> simp
@[simp] theorem commit_inputs : (commit d o b s).inputs = s.inputs := by unfold commit; simp only []; split <;> split <;> simp
@[simp] theorem commit_calls : (commit d o b s).calls = s.calls := by unfold commit; simp only []; split <;> split <;> simp
theorem commit_t : (commit d o b s).t = if d.loadt then tSource o b else s.t := by
  unfold commit; simp only []; split <;> split <;> simp

/-- What the commit leaves in each latch (R164 to R167). -/
theorem commit_l : (commit d o b s).l = if d.loadl then o.alu else s.l := by
  unfold commit; simp only []; split <;> split <;> simp [commitL_l]
theorem commit_laluc0 : (commit d o b s).laluc0 = if d.loadl then latchedCarry o else s.laluc0 := by
  unfold commit; simp only []; split <;> split <;> simp [commitL_laluc0]
theorem commit_m : (commit d o b s).m = if d.loadl && ramRelated s.cfg s.task then o.alu else s.m := by
  unfold commit; simp only []; split <;> split <;> simp_all [commitL_m]
theorem commit_length : (commit d o b s).sregs.length = s.sregs.length := by
  unfold commit; simp only []; split <;> split <;> simp [commitL_length]

end commitFields

section nextAddressFields

variable (d : Microword) (n : MicroAddr) (s : State)

@[simp] theorem nextAddress_run : (nextAddress d n s).run = s.run := by simp [nextAddress]
@[simp] theorem nextAddress_cfg : (nextAddress d n s).cfg = s.cfg := by simp [nextAddress]
@[simp] theorem nextAddress_r : (nextAddress d n s).r = s.r := by simp [nextAddress]
@[simp] theorem nextAddress_sregs : (nextAddress d n s).sregs = s.sregs := by simp [nextAddress]
@[simp] theorem nextAddress_l : (nextAddress d n s).l = s.l := by simp [nextAddress]
@[simp] theorem nextAddress_t : (nextAddress d n s).t = s.t := by simp [nextAddress]
@[simp] theorem nextAddress_m : (nextAddress d n s).m = s.m := by simp [nextAddress]
@[simp] theorem nextAddress_laluc0 : (nextAddress d n s).laluc0 = s.laluc0 := by simp [nextAddress]
@[simp] theorem nextAddress_sbank : (nextAddress d n s).sbank = s.sbank := by simp [nextAddress]
@[simp] theorem nextAddress_wrPend : (nextAddress d n s).wrPend = s.wrPend := by simp [nextAddress]
@[simp] theorem nextAddress_wrAddr : (nextAddress d n s).wrAddr = s.wrAddr := by simp [nextAddress]
@[simp] theorem nextAddress_rdPend : (nextAddress d n s).rdPend = s.rdPend := by simp [nextAddress]
@[simp] theorem nextAddress_rdAddr : (nextAddress d n s).rdAddr = s.rdAddr := by simp [nextAddress]
@[simp] theorem nextAddress_store : (nextAddress d n s).store = s.store := by simp [nextAddress]
@[simp] theorem nextAddress_bankreg : (nextAddress d n s).bankreg = s.bankreg := by simp [nextAddress]
@[simp] theorem nextAddress_wakeup : (nextAddress d n s).wakeup = s.wakeup := by simp [nextAddress]
@[simp] theorem nextAddress_reqTask : (nextAddress d n s).reqTask = s.reqTask := by simp [nextAddress]
@[simp] theorem nextAddress_ticks : (nextAddress d n s).ticks = s.ticks := by simp [nextAddress]
@[simp] theorem nextAddress_inputs : (nextAddress d n s).inputs = s.inputs := by simp [nextAddress]
@[simp] theorem nextAddress_confTask : (nextAddress d n s).confTask = s.reqTask := by simp [nextAddress, switchEvaluation]

/-- Step 10 when the confirmed task is the current one: no switch. -/
theorem nextAddress_stay (h : s.confTask = s.task) :
    nextAddress d n s = { s with mpc := d.next ||| n, confTask := s.reqTask } := by
  simp [nextAddress, switchEvaluation, h]

/-- Step 10 when another task is confirmed: its cells are restored, the old task's are saved (R256). -/
theorem nextAddress_switch (h : s.confTask ≠ s.task) :
    (nextAddress d n s).task = s.confTask ∧ (nextAddress d n s).mpc = at16 s.taskMpc s.confTask ∧
      (nextAddress d n s).page = at16 s.taskPage s.confTask ∧
      (nextAddress d n s).taskMpc = set16 s.taskMpc s.task (d.next ||| n) ∧
      (nextAddress d n s).taskPage = set16 s.taskPage s.task s.page ∧
      (nextAddress d n s).calls =
        if s.cfg.becameActive.getLsbD s.confTask.toNat then .becameActive s.confTask :: s.calls else s.calls := by
  simp only [nextAddress, switchEvaluation, h, ne_eq, not_false_eq_true, if_true, switchTo]
  split <;> simp [at16_set16_other _ _ h]

end nextAddressFields

end Sys2Proof.Machine
end

