-- ==== Sys2Proof/Laws/PerInstr.lean ====
section
/-! SUPPORT. Statements made for every instruction, one lemma per constructor. -/

/-- The fields of an instruction's word are the instruction's fields: no bit of the word is dropped or moved. -/
def Sys2Proof.Laws.WordFields.Statement (i : Sys2Proof.Instr) : Prop :=
  Sys2Proof.wordFields (Sys2Proof.encode i) = Sys2Proof.instrFields i

namespace Sys2Proof.Laws.WordFields

variable (rsel : RegNum) (aluf : BitVec 4) (bs : BitVec 3) (f1 f2 : BitVec 4) (loadt loadl : Bool) (next : MicroAddr)

theorem aluBus : Statement (.aluBus rsel bs f1 f2 loadt loadl next) := wordFields_encode _
theorem aluT : Statement (.aluT rsel bs f1 f2 loadt loadl next) := wordFields_encode _
theorem aluBusOrT : Statement (.aluBusOrT rsel bs f1 f2 loadt loadl next) := wordFields_encode _
theorem aluBusAndT : Statement (.aluBusAndT rsel bs f1 f2 loadt loadl next) := wordFields_encode _
theorem aluBusXorT : Statement (.aluBusXorT rsel bs f1 f2 loadt loadl next) := wordFields_encode _
theorem aluBusPlus1 : Statement (.aluBusPlus1 rsel bs f1 f2 loadt loadl next) := wordFields_encode _
theorem aluBusMinus1 : Statement (.aluBusMinus1 rsel bs f1 f2 loadt loadl next) := wordFields_encode _
theorem aluBusPlusT : Statement (.aluBusPlusT rsel bs f1 f2 loadt loadl next) := wordFields_encode _
theorem aluBusMinusT : Statement (.aluBusMinusT rsel bs f1 f2 loadt loadl next) := wordFields_encode _
theorem aluBusMinusTMinus1 : Statement (.aluBusMinusTMinus1 rsel bs f1 f2 loadt loadl next) := wordFields_encode _
theorem aluBusPlusTPlus1 : Statement (.aluBusPlusTPlus1 rsel bs f1 f2 loadt loadl next) := wordFields_encode _
theorem aluBusPlusSkip : Statement (.aluBusPlusSkip rsel bs f1 f2 loadt loadl next) := wordFields_encode _
theorem aluBusDotT : Statement (.aluBusDotT rsel bs f1 f2 loadt loadl next) := wordFields_encode _
theorem aluBusAndNotT : Statement (.aluBusAndNotT rsel bs f1 f2 loadt loadl next) := wordFields_encode _
theorem aluUndef14 : Statement (.aluUndef14 rsel bs f1 f2 loadt loadl next) := wordFields_encode _
theorem aluUndef15 : Statement (.aluUndef15 rsel bs f1 f2 loadt loadl next) := wordFields_encode _
theorem bsReadr : Statement (.bsReadr rsel aluf f1 f2 loadt loadl next) := wordFields_encode _
theorem bsLoadr : Statement (.bsLoadr rsel aluf f1 f2 loadt loadl next) := wordFields_encode _
theorem bsNone : Statement (.bsNone rsel aluf f1 f2 loadt loadl next) := wordFields_encode _
theorem bsTaskSlot3 : Statement (.bsTaskSlot3 rsel aluf f1 f2 loadt loadl next) := wordFields_encode _
theorem bsTaskSlot4 : Statement (.bsTaskSlot4 rsel aluf f1 f2 loadt loadl next) := wordFields_encode _
theorem bsReadmd : Statement (.bsReadmd rsel aluf f1 f2 loadt loadl next) := wordFields_encode _
theorem bsMouse : Statement (.bsMouse rsel aluf f1 f2 loadt loadl next) := wordFields_encode _
theorem bsDisp : Statement (.bsDisp rsel aluf f1 f2 loadt loadl next) := wordFields_encode _
theorem f1None : Statement (.f1None rsel aluf bs f2 loadt loadl next) := wordFields_encode _
theorem f1Loadmar : Statement (.f1Loadmar rsel aluf bs f2 loadt loadl next) := wordFields_encode _
theorem f1Task : Statement (.f1Task rsel aluf bs f2 loadt loadl next) := wordFields_encode _
theorem f1Block : Statement (.f1Block rsel aluf bs f2 loadt loadl next) := wordFields_encode _
theorem f1Llsh1 : Statement (.f1Llsh1 rsel aluf bs f2 loadt loadl next) := wordFields_encode _
theorem f1Lrsh1 : Statement (.f1Lrsh1 rsel aluf bs f2 loadt loadl next) := wordFields_encode _
theorem f1Llcy8 : Statement (.f1Llcy8 rsel aluf bs f2 loadt loadl next) := wordFields_encode _
theorem f1Const : Statement (.f1Const rsel aluf bs f2 loadt loadl next) := wordFields_encode _
theorem f1TaskSlot0o10 : Statement (.f1TaskSlot0o10 rsel aluf bs f2 loadt loadl next) := wordFields_encode _
theorem f1TaskSlot0o11 : Statement (.f1TaskSlot0o11 rsel aluf bs f2 loadt loadl next) := wordFields_encode _
theorem f1TaskSlot0o12 : Statement (.f1TaskSlot0o12 rsel aluf bs f2 loadt loadl next) := wordFields_encode _
theorem f1TaskSlot0o13 : Statement (.f1TaskSlot0o13 rsel aluf bs f2 loadt loadl next) := wordFields_encode _
theorem f1TaskSlot0o14 : Statement (.f1TaskSlot0o14 rsel aluf bs f2 loadt loadl next) := wordFields_encode _
theorem f1TaskSlot0o15 : Statement (.f1TaskSlot0o15 rsel aluf bs f2 loadt loadl next) := wordFields_encode _
theorem f1TaskSlot0o16 : Statement (.f1TaskSlot0o16 rsel aluf bs f2 loadt loadl next) := wordFields_encode _
theorem f1TaskSlot0o17 : Statement (.f1TaskSlot0o17 rsel aluf bs f2 loadt loadl next) := wordFields_encode _
theorem f2None : Statement (.f2None rsel aluf bs f1 loadt loadl next) := wordFields_encode _
theorem f2Buseq0 : Statement (.f2Buseq0 rsel aluf bs f1 loadt loadl next) := wordFields_encode _
theorem f2Shlt0 : Statement (.f2Shlt0 rsel aluf bs f1 loadt loadl next) := wordFields_encode _
theorem f2Sheq0 : Statement (.f2Sheq0 rsel aluf bs f1 loadt loadl next) := wordFields_encode _
theorem f2Bus : Statement (.f2Bus rsel aluf bs f1 loadt loadl next) := wordFields_encode _
theorem f2Alucy : Statement (.f2Alucy rsel aluf bs f1 loadt loadl next) := wordFields_encode _
theorem f2Loadmd : Statement (.f2Loadmd rsel aluf bs f1 loadt loadl next) := wordFields_encode _
theorem f2Const : Statement (.f2Const rsel aluf bs f1 loadt loadl next) := wordFields_encode _
theorem f2TaskSlot0o10 : Statement (.f2TaskSlot0o10 rsel aluf bs f1 loadt loadl next) := wordFields_encode _
theorem f2TaskSlot0o11 : Statement (.f2TaskSlot0o11 rsel aluf bs f1 loadt loadl next) := wordFields_encode _
theorem f2TaskSlot0o12 : Statement (.f2TaskSlot0o12 rsel aluf bs f1 loadt loadl next) := wordFields_encode _
theorem f2TaskSlot0o13 : Statement (.f2TaskSlot0o13 rsel aluf bs f1 loadt loadl next) := wordFields_encode _
theorem f2TaskSlot0o14 : Statement (.f2TaskSlot0o14 rsel aluf bs f1 loadt loadl next) := wordFields_encode _
theorem f2TaskSlot0o15 : Statement (.f2TaskSlot0o15 rsel aluf bs f1 loadt loadl next) := wordFields_encode _
theorem f2TaskSlot0o16 : Statement (.f2TaskSlot0o16 rsel aluf bs f1 loadt loadl next) := wordFields_encode _
theorem f2TaskSlot0o17 : Statement (.f2TaskSlot0o17 rsel aluf bs f1 loadt loadl next) := wordFields_encode _
theorem loadT : Statement (.loadT rsel aluf bs f1 f2 loadl next) := wordFields_encode _
theorem loadL : Statement (.loadL rsel aluf bs f1 f2 loadt next) := wordFields_encode _

end Sys2Proof.Laws.WordFields
end

