-- ==== Sys2Proof/Laws/Ready.lean ====
section
/-! SUPPORT. A ready word's parts cannot stop: each dispatch that `slotReady` accepts answers a cycle. -/

namespace Sys2Proof.Machine

/-- What an installed operation needs of a cycle: the ALU's outputs in the late phase, as many S banks as configured. -/
structure CycReady (ph : Phase) (c : Cyc) : Prop where
  alu   : ph = .late → ∃ o, c.alu = some o
  sregs : c.st.sregs.length = c.st.cfg.sBanks

theorem CycReady.of_frame {ph : Phase} {c c' : Cyc} (h : CycReady ph c) (f : PortFrame c c') : CycReady ph c' where
  alu := by rw [f.alu]; exact h.alu
  sregs := by rw [f.sregs, f.cfg]; exact h.sregs

theorem andThen_ok {ε α β : Type} {x : Except ε α} {f : α → Except ε β} {a : α} {b : β}
    (h : x = .ok a) (k : f a = .ok b) :
    (x >>= f) = .ok b := by
  rw [h]
  exact k

theorem and_toNat_le (x y : Word) : (x &&& y).toNat ≤ y.toNat := by
  rw [BitVec.toNat_and]
  exact Nat.and_le_right

/-- A bounded bank number is below its bound. -/
theorem valBounded_lt {ph : Phase} {n : Nat} {c : Cyc} {v : Val} {x : Word} (hb : valBounded n v = true)
    (hx : evalVal ph c v = .ok x) : x.toNat < n := by
  unfold valBounded at hb
  split at hb
  · cases hx
    exact of_decide_eq_true hb
  · next a m =>
    obtain ⟨y, _, h⟩ := bind_ok hx
    obtain ⟨z, hz, h⟩ := bind_ok h
    cases hz
    cases h
    exact Nat.lt_of_le_of_lt (and_toNat_le _ _) (of_decide_eq_true hb)
  · cases hb

theorem readS_some {s : State} {b : Nat} (i : RegNum) (h : b < s.sregs.length) : ∃ v, readS s b i = some v := by
  unfold readS
  rw [List.getElem?_eq_getElem h]
  exact ⟨_, rfl⟩

/-- A ready expression has a value. -/
theorem evalVal_ready {ph : Phase} {c : Cyc} (hc : CycReady ph c) {v : Val}
    (h : valReady ph c.st.cfg.sBanks v = true) : ∃ x, evalVal ph c v = .ok x := by
  induction v with
  | alu =>
    obtain ⟨o, ho⟩ := hc.alu (eq_of_beq h)
    exact ⟨o.alu, by simp [evalVal, ho]⟩
  | aluc0 =>
    obtain ⟨o, ho⟩ := hc.alu (eq_of_beq h)
    exact ⟨bitWord o.aluc0, by simp [evalVal, ho]⟩
  | shifter =>
    have : ph = .late := eq_of_beq h
    subst this
    exact ⟨_, rfl⟩
  | readR i ih =>
    obtain ⟨x, hx⟩ := ih h
    exact ⟨_, andThen_ok hx rfl⟩
  | readS b i ihb ihi =>
    simp only [valReady, Bool.and_eq_true] at h
    obtain ⟨x, hx⟩ := ihb h.1.2
    obtain ⟨y, hy⟩ := ihi h.2
    have hlt := valBounded_lt h.1.1 hx
    rw [← hc.sregs] at hlt
    obtain ⟨v, hv⟩ := readS_some (s := c.st) (y.extractLsb' 0 5) hlt
    exact ⟨v, andThen_ok hx (andThen_ok hy (by simp only [hv]))⟩
  | not a ih =>
    obtain ⟨x, hx⟩ := ih h
    exact ⟨_, andThen_ok hx rfl⟩
  | shl a n ih =>
    obtain ⟨x, hx⟩ := ih h
    exact ⟨_, andThen_ok hx rfl⟩
  | shr a n ih =>
    obtain ⟨x, hx⟩ := ih h
    exact ⟨_, andThen_ok hx rfl⟩
  | and a b iha ihb | or a b iha ihb | xor a b iha ihb | add a b iha ihb =>
    simp only [valReady, Bool.and_eq_true] at h
    obtain ⟨x, hx⟩ := iha h.1
    obtain ⟨y, hy⟩ := ihb h.2
    exact ⟨_, andThen_ok hx (andThen_ok hy rfl)⟩
  | cond k a b ihk iha ihb =>
    simp only [valReady, Bool.and_eq_true] at h
    obtain ⟨z, hz⟩ := ihk h.1.1
    obtain ⟨x, hx⟩ := iha h.1.2
    obtain ⟨y, hy⟩ := ihb h.2
    by_cases hz0 : z ≠ 0
    · exact ⟨x, andThen_ok hz ((if_pos hz0).trans hx)⟩
    · exact ⟨y, andThen_ok hz ((if_neg hz0).trans hy)⟩
  | _ => exact ⟨_, rfl⟩

/-- A ready act answers a cycle. -/
theorem runAct_ready {ph : Phase} {fam : Family} {c : Cyc} (hc : CycReady ph c) {a : Act}
    (h : actReady ph fam c.st.cfg c.st.task a = true) : ∃ c', runAct ph fam c a = .ok c' := by
  induction a with
  | andBus v =>
    simp only [actReady, Bool.and_eq_true, beq_iff_eq] at h
    obtain ⟨x, hx⟩ := evalVal_ready hc h.2
    exact ⟨_, andThen_ok hx (by simp only [h.1, if_true]; rfl)⟩
  | setRsel v =>
    simp only [actReady, Bool.and_eq_true, beq_iff_eq] at h
    obtain ⟨x, hx⟩ := evalVal_ready hc h.2
    exact ⟨_, andThen_ok hx (by simp only [h.1, and_self, if_true]; rfl)⟩
  | orNext v =>
    simp only [actReady, Bool.and_eq_true, beq_iff_eq] at h
    obtain ⟨x, hx⟩ := evalVal_ready hc h.2
    exact ⟨_, andThen_ok hx (by simp only [h.1, if_true]; rfl)⟩
  | writeR i v =>
    simp only [actReady, Bool.and_eq_true] at h
    obtain ⟨n, hn⟩ := evalVal_ready hc h.1
    obtain ⟨x, hx⟩ := evalVal_ready hc h.2
    exact ⟨_, andThen_ok hn (andThen_ok hx rfl)⟩
  | writeS b i v =>
    simp only [actReady, Bool.and_eq_true] at h
    obtain ⟨bn, hb⟩ := evalVal_ready hc h.1.1.2
    obtain ⟨n, hn⟩ := evalVal_ready hc h.1.2
    obtain ⟨x, hx⟩ := evalVal_ready hc h.2
    have hlt := valBounded_lt h.1.1.1 hb
    exact ⟨_, andThen_ok hb (andThen_ok hn (andThen_ok hx (by simp only [hlt, if_true]; rfl)))⟩
  | setSBank k b =>
    simp only [actReady, Bool.and_eq_true] at h
    obtain ⟨kn, hk⟩ := evalVal_ready hc h.1.1
    obtain ⟨bn, hb⟩ := evalVal_ready hc h.2
    have hlt := valBounded_lt h.1.2 hb
    exact ⟨_, andThen_ok hk (andThen_ok hb (by simp only [hlt, if_true]; rfl))⟩
  | requestURamWrite =>
    simp only [actReady, Bool.and_eq_true, beq_iff_eq] at h
    exact ⟨_, by simp only [runAct, h.1.1, h.1.2, h.2, and_self, if_true]; rfl⟩
  | requestURamRead =>
    simp only [actReady, Bool.and_eq_true, beq_iff_eq] at h
    exact ⟨_, by simp only [runAct, h.1.1, h.1.2, h.2, and_self, if_true]; rfl⟩
  | setPage p =>
    simp only [actReady, Bool.and_eq_true, beq_iff_eq] at h
    obtain ⟨x, hx⟩ := evalVal_ready hc h.2
    exact ⟨_, andThen_ok hx (by simp only [h.1, if_true]; rfl)⟩
  | setMagic =>
    simp only [actReady, Bool.and_eq_true, beq_iff_eq] at h
    exact ⟨_, by simp only [runAct, h.1, h.2, and_self, if_true]; rfl⟩
  | loadMar i v =>
    simp only [actReady, Bool.and_eq_true] at h
    obtain ⟨n, hn⟩ := evalVal_ready hc h.1
    obtain ⟨x, hx⟩ := evalVal_ready hc h.2
    exact ⟨_, andThen_ok hn (andThen_ok hx rfl)⟩
  | writeMem v =>
    obtain ⟨x, hx⟩ := evalVal_ready hc h
    exact ⟨_, andThen_ok hx rfl⟩
  | andReadMem =>
    simp only [actReady, beq_iff_eq] at h
    exact ⟨_, by simp only [runAct, h, if_true]; rfl⟩
  | ask q =>
    cases q with
    | marStall i =>
      obtain ⟨x, hx⟩ := evalVal_ready hc (v := i) h
      exact ⟨_, andThen_ok hx rfl⟩
    | _ => exact ⟨_, rfl⟩
  | device k v =>
    obtain ⟨x, hx⟩ := evalVal_ready hc h
    exact ⟨_, andThen_ok hx rfl⟩
  | wake k =>
    obtain ⟨x, hx⟩ := evalVal_ready hc h
    exact ⟨_, andThen_ok hx rfl⟩
  | unwake k =>
    simp only [actReady, Bool.and_eq_true] at h
    obtain ⟨x, hx⟩ := evalVal_ready hc h.2
    exact ⟨_, andThen_ok hx rfl⟩
  | arbitrate => cases h
  | onlyIf k a ih =>
    simp only [actReady, Bool.and_eq_true] at h
    obtain ⟨z, hz⟩ := evalVal_ready hc h.1
    obtain ⟨c', hc'⟩ := ih h.2
    by_cases hz0 : z ≠ 0
    · exact ⟨c', andThen_ok hz ((if_pos hz0).trans hc')⟩
    · exact ⟨c, andThen_ok hz (if_neg hz0)⟩
  | outside => cases h

/-- A ready operation answers a cycle. -/
theorem runActs_ready {ph : Phase} {fam : Family} {acts : List Act} {c : Cyc} (hc : CycReady ph c)
    (h : acts.all (actReady ph fam c.st.cfg c.st.task) = true) : ∃ c', runActs ph fam acts c = .ok c' := by
  induction acts generalizing c with
  | nil => exact ⟨c, rfl⟩
  | cons a rest ih =>
    simp only [List.all_cons, Bool.and_eq_true] at h
    obtain ⟨c1, h1⟩ := runAct_ready hc h.1
    have f := runAct_frame h1
    obtain ⟨c2, h2⟩ := ih (hc.of_frame f) (by rw [f.cfg, f.task]; exact h.2)
    exact ⟨c2, by simp only [runActs, h1, h2]⟩

/-- A ready dispatch answers a cycle, if its default operation does. -/
theorem dispatch_ready {ph : Phase} {fam : Family} {code : Nat} {dflt : Cyc → Except Stop Cyc} {c : Cyc}
    (hc : CycReady ph c) (h : slotReady c.st ph fam code = true) (hd : ∃ c', dflt c = .ok c') :
    ∃ c', dispatch ph fam code dflt c = .ok c' := by
  unfold slotReady at h
  unfold dispatch
  split at h
  · next acts hr => rw [hr]; exact runActs_ready hc h
  · next hr => rw [hr]; exact ⟨c, rfl⟩
  · next hr => rw [hr]; exact hd
  · cases h

/-- The slots that a state accepts depend on its configuration and current task only. -/
theorem slotReady_congr {s u : State} (hc : u.cfg = s.cfg)
    (ht : u.task = s.task) (ph : Phase) (fam : Family) (code : Nat) :
    slotReady u ph fam code = slotReady s ph fam code := by
  unfold slotReady
  rw [hc, ht]

/-- A pending read that can be performed answers a cycle. -/
theorem readPerform_ready {d : Microword} {s : State}
    (h : readReady s = true) : ∃ c, readPerform (startCycle d s) = .ok c := by
  unfold readReady at h
  by_cases hp : s.rdPend = true
  · simp only [hp, Bool.not_true, Bool.false_or, Bool.and_eq_true, Bool.not_eq_true'] at h
    have : ∃ v, uRamRead s (ramBank s.rdAddr) (ramWord s.rdAddr) (ramHalf s.rdAddr) = .ok v := by
      unfold uRamRead
      cases hb : bankInRange s.cfg (ramBank s.rdAddr) with
      | none => exact ⟨_, rfl⟩
      | some b =>
        simp only [hb] at h
        cases hr : s.store.read (ramAddr s.cfg b (ramWord s.rdAddr)) with
        | none => simp [hr] at h
        | some w => exact ⟨_, by simp only [hr]; rfl⟩
    obtain ⟨v, hv⟩ := this
    refine ⟨andBus v (mapState (fun s => { s with rdPend := false }) (startCycle d s)), ?_⟩
    · unfold readPerform
      have hp' : (startCycle d s).st.rdPend = true := hp
      have e : (startCycle d s).st = s := rfl
      rw [if_pos hp', e, hv, h.1]; rfl
  · exact ⟨_, if_neg hp⟩

/-- The default operations other than the arbitration always answer a cycle. -/
theorem bsEarlyDefault_ok (code) (c : Cyc) : ∃ c', bsEarlyDefault code c = .ok c' := by
  unfold bsEarlyDefault; split <;> exact ⟨_, rfl⟩
theorem bsLateDefault_ok (code) (c : Cyc) : ∃ c', bsLateDefault code c = .ok c' := by
  unfold bsLateDefault; split <;> exact ⟨_, rfl⟩
theorem f2LateDefault_ok (code) (c : Cyc) : ∃ c', f2LateDefault code c = .ok c' := by
  unfold f2LateDefault; split <;> exact ⟨_, rfl⟩
theorem f1LateDefault_ok (code) (c : Cyc) : ∃ c', f1LateDefault code c = .ok c' := by
  unfold f1LateDefault; split <;> exact ⟨_, rfl⟩

/-- Bits ORed into a value that is not zero leave it not zero. -/
theorem or_ne_zero {w} (x y : BitVec w) (h : x ≠ 0) : x ||| y ≠ 0 := by
  intro h2; apply h
  apply BitVec.eq_of_getLsbD_eq; intro i hi
  have := congrArg (fun v => v.getLsbD i) h2
  simp at this ⊢; exact this.1

/-- A ready early act leaves a wakeup bit set, if one was. -/
theorem runAct_early_wakeup {fam : Family} {c c' : Cyc} {a : Act}
    (ha : actReady .early fam c.st.cfg c.st.task a = true)
   (h : runAct .early fam c a = .ok c') (hw : c.st.wakeup ≠ 0) : c'.st.wakeup ≠ 0 := by
  induction a generalizing c c' with
  | andBus v =>
    obtain ⟨x, _, h⟩ := bind_ok h
    obtain ⟨_, rfl⟩ := ite_ok outsidePorts_ne h; exact hw
  | setRsel v =>
    obtain ⟨x, _, h⟩ := bind_ok h
    obtain ⟨_, rfl⟩ := ite_ok outsidePorts_ne h; exact hw
  | orNext v =>
    obtain ⟨x, _, h⟩ := bind_ok h
    obtain ⟨_, rfl⟩ := ite_ok outsidePorts_ne h; exact hw
  | writeR i v =>
    obtain ⟨n, _, h⟩ := bind_ok h
    obtain ⟨x, _, h⟩ := bind_ok h
    cases h; exact hw
  | writeS b i v =>
    obtain ⟨bn, _, h⟩ := bind_ok h
    obtain ⟨n, _, h⟩ := bind_ok h
    obtain ⟨x, _, h⟩ := bind_ok h
    obtain ⟨_, rfl⟩ := ite_ok outsidePorts_ne h; simpa [mapState] using hw
  | setSBank k b =>
    obtain ⟨kn, _, h⟩ := bind_ok h
    obtain ⟨bn, _, h⟩ := bind_ok h
    obtain ⟨hb, rfl⟩ := ite_ok outsidePorts_ne h; exact hw
  | requestURamWrite =>
    obtain ⟨_, rfl⟩ := ite_ok outsidePorts_ne h; exact hw
  | requestURamRead =>
    obtain ⟨_, rfl⟩ := ite_ok outsidePorts_ne h; exact hw
  | setPage p =>
    obtain ⟨x, _, h⟩ := bind_ok h
    obtain ⟨_, rfl⟩ := ite_ok outsidePorts_ne h; exact hw
  | setMagic =>
    obtain ⟨_, rfl⟩ := ite_ok outsidePorts_ne h; exact hw
  | loadMar i v =>
    obtain ⟨n, _, h⟩ := bind_ok h
    obtain ⟨x, _, h⟩ := bind_ok h
    cases h; exact hw
  | writeMem v =>
    obtain ⟨x, _, h⟩ := bind_ok h
    cases h; exact hw
  | andReadMem =>
    obtain ⟨_, rfl⟩ := ite_ok outsidePorts_ne h; exact hw
  | ask q =>
    obtain ⟨v, rfl | ⟨k, rfl⟩⟩ := runQuery_ok h <;> exact hw
  | device k v =>
    obtain ⟨x, _, h⟩ := bind_ok h
    cases h; exact hw
  | wake k =>
    obtain ⟨x, _, h⟩ := bind_ok h
    cases h; exact or_ne_zero _ _ hw
  | unwake k => simp [actReady] at ha
  | arbitrate => cases ha
  | onlyIf k a ih =>
    obtain ⟨z, _, h⟩ := bind_ok h
    simp only [actReady, Bool.and_eq_true] at ha
    split at h
    · exact ih ha.2 h hw
    · cases h; exact hw
  | outside => cases h

/-- A ready early operation leaves a wakeup bit set, if one was. -/
theorem runActs_early_wakeup {fam : Family} {c c' : Cyc} {acts : List Act}
    (ha : acts.all (actReady .early fam c.st.cfg c.st.task) = true)
   (h : runActs .early fam acts c = .ok c') (hw : c.st.wakeup ≠ 0) : c'.st.wakeup ≠ 0 := by
  induction acts generalizing c with
  | nil => cases h; exact hw
  | cons a rest ih =>
    simp only [List.all_cons, Bool.and_eq_true] at ha
    unfold runActs at h
    split at h
    · next h1 =>
      have f := runAct_frame h1
      exact ih (by rw [f.cfg, f.task]; exact ha.2) h (runAct_early_wakeup ha.1 h1 hw)
    · cases h

/-- A ready early dispatch leaves a wakeup bit set, if one was and its default operation does. -/
theorem dispatch_early_wakeup {fam : Family} {code : Nat} {dflt : Cyc → Except Stop Cyc} {c c' : Cyc}
    (ha : slotReady c.st .early fam code = true)
  (h : dispatch .early fam code dflt c = .ok c') (hd : dflt c = .ok c' → c'.st.wakeup ≠ 0) (hw : c.st.wakeup ≠ 0) :
   c'.st.wakeup ≠ 0 := by
  unfold slotReady at ha
  unfold dispatch at h
  split at h
  · next hr => rw [hr] at ha; exact runActs_early_wakeup ha h hw
  · cases h; exact hw
  · cases h
  · exact hd h

theorem bsEarlyDefault_wakeup {code : BitVec 3} {c c' : Cyc}
    (h : bsEarlyDefault code c = .ok c') : c'.st.wakeup = c.st.wakeup := by
  unfold bsEarlyDefault at h; split at h <;> cases h <;> rfl

/-- A slot that is ready and holds nothing installed has its default entry, in each phase. -/
theorem resolve_plain {s : State} {ph : Phase} {fam : Family} {code : Nat} (hr : slotReady s ph fam code = true)
    (hp : plainSlot s fam code = true) :
   resolve s.cfg ph s.task fam code = .byDefault := by
  simp only [plainSlot, Bool.and_eq_true, Option.isNone_iff_eq_none] at hp
  unfold slotReady at hr
  unfold resolve at hr ⊢
  cases ph <;> simp only [hp.1, hp.2, otherPhase] at hr ⊢ <;> split <;> simp_all

theorem dispatch_default {ph : Phase} {fam : Family} {code : Nat} {dflt : Cyc → Except Stop Cyc} {c : Cyc}
    (h : resolve c.st.cfg ph c.st.task fam code = .byDefault) : dispatch ph fam code dflt c = dflt c := by
  unfold dispatch
  rw [h]

end Sys2Proof.Machine
end

