-- ==== Sys2Proof/Laws/Step.lean ====
section
/-! SUPPORT. What one step can do around exec: the fetch, the end of an iteration, the switch evaluation's cells. -/

namespace Sys2Proof.Machine

/-- A step that answers a state: a halted core stays, or the fetched word ran and the iteration ended. -/
theorem step_cases {s u : State} (h : step s = .next u) :
    u = s ∨
    ∃ w t, fetch s = some w ∧ s.run = .running ∧ exec (decode w) s = .next t ∧ u = endIteration t := by
  unfold step at h
  split at h
  · cases h; exact .inl rfl
  · next hr =>
    split at h
    · cases h
    · next w hf =>
      unfold finish at h
      split at h
      · next t ht => cases h; exact .inr ⟨w, t, hf, hr, ht, rfl⟩
      · cases h
      · cases h

/-- A run of `n + 1` steps, as the host defines it. -/
theorem core_run_eq (c : Host.Core) (n : Nat) (s : c.State) :
    c.run (n + 1) s =
      match c.step s with
      | .next t => c.run n t
      | .fault r => .fault r
      | .refused r => .refused r := rfl

/-- One more step of a run. -/
theorem core_run_succ {n : Nat} {s t : State} (h : step s = .next t) : core.run (n + 1) s = core.run n t := by
  refine (core_run_eq core n s).trans ?_
  have h' : core.step s = .next t := h
  rw [h']

/-- The fetch of a word in stored form. -/
theorem fetch_of_read {s : State} {w : UWord}
    (h : s.store.read (s.page * pageSize + s.mpc.toNat) = some (w ^^^ s.cfg.invMask)) : fetch s = some w := by
  unfold fetch uFetch fetchAddr
  rw [h, Option.map_some, BitVec.xor_assoc, BitVec.xor_self, BitVec.xor_zero]

/-- An event changes none of these fields. -/
theorem applyEvent_frame (s : State) (e : Event) :
    (applyEvent s e).run = s.run ∧ (applyEvent s e).cfg = s.cfg ∧ (applyEvent s e).store = s.store ∧
      (applyEvent s e).r = s.r ∧ (applyEvent s e).sregs = s.sregs ∧ (applyEvent s e).sbank = s.sbank ∧
      (applyEvent s e).ticks = s.ticks ∧ (applyEvent s e).inputs = s.inputs := by
  cases e <;> simp only [applyEvent] <;> (try split) <;> exact ⟨rfl, rfl, rfl, rfl, rfl, rfl, rfl, rfl⟩

/-- Events change none of these fields. -/
theorem applyEvents_frame (es : List Event) (s : State) :
    (applyEvents es s).run = s.run ∧ (applyEvents es s).cfg = s.cfg ∧ (applyEvents es s).store = s.store ∧
      (applyEvents es s).r = s.r ∧ (applyEvents es s).sregs = s.sregs ∧ (applyEvents es s).sbank = s.sbank ∧
      (applyEvents es s).ticks = s.ticks ∧ (applyEvents es s).inputs = s.inputs := by
  induction es generalizing s with
  | nil => exact ⟨rfl, rfl, rfl, rfl, rfl, rfl, rfl, rfl⟩
  | cons e rest ih =>
    obtain ⟨h1, h2, h3, h4, h5, h6, h7, h8⟩ := applyEvent_frame s e
    obtain ⟨k1, k2, k3, k4, k5, k6, k7, k8⟩ := ih (applyEvent s e)
    exact ⟨k1.trans h1, k2.trans h2, k3.trans h3, k4.trans h4, k5.trans h5, k6.trans h6, k7.trans h7, k8.trans h8⟩

/-- The cells of the switch evaluation, whether or not it switches. -/
theorem switchEvaluation_cells (s : State) :
    (switchEvaluation s).task = s.confTask ∧
      (switchEvaluation s).taskMpc = (if s.confTask ≠ s.task then set16 s.taskMpc s.task s.mpc else s.taskMpc) ∧
      (switchEvaluation s).taskPage = (if s.confTask ≠ s.task then set16 s.taskPage s.task s.page else s.taskPage) := by
  unfold switchEvaluation switchTo
  by_cases h : s.confTask = s.task <;> simp [h]
  split <;> simp

/-- The S read port after the S write port. -/
theorem readS_writeS {s : State} {b : Nat} {i : RegNum} {v : Word} (h : b < s.sregs.length) (b' : Nat) (j : RegNum) :
   readS (writeS s b i v) b' j = if b' = b ∧ j = i then some v else readS s b' j := by
  unfold readS writeS
  rw [List.getElem?_eq_getElem h]
  simp only []
  by_cases hb : b' = b
  · subst hb
    rw [List.getElem?_eq_getElem (by simpa using h), List.getElem?_eq_getElem h]
    simp [at32_set32]; split <;> rfl
  · rw [List.getElem?_set_ne (Ne.symm hb), if_neg (fun h => hb h.1)]

end Sys2Proof.Machine
end

