-- ==== Sys2Proof/Laws/Stops.lean ====
section
/-! SUPPORT. Why a cycle can stop, said once for each part of it: the pending read, an act outside its ports, an empty wakeup
mask, an unfilled slot. -/

namespace Sys2Proof.Machine

/-- From a sequence that stops: its first part stopped, or the rest did. -/
theorem bind_err {ε α β : Type} {x : Except ε α} {f : α → Except ε β} {e : ε} (h : (x >>= f) = .error e) :
    x = .error e ∨ ∃ a, x = .ok a ∧ f a = .error e := by
  cases x with
  | ok a => exact .inr ⟨a, rfl, h⟩
  | error e' => cases h; exact .inl rfl

/-- The only stop of an expression is a value that is not available. -/
theorem evalVal_err {ph : Phase} {c : Cyc} {v : Val} {e : Stop}
    (h : evalVal ph c v = .error e) : e = .refused .unmodelledOperation := by
  induction v with
  | alu | aluc0 => simp only [evalVal] at h; split at h <;> cases h; rfl
  | shifter => simp only [evalVal] at h; split at h <;> cases h; rfl
  | readR i ih =>
    rcases bind_err h with h | ⟨_, _, h⟩
    · exact ih h
    · cases h
  | readS b i ihb ihi =>
    rcases bind_err h with h | ⟨_, _, h⟩
    · exact ihb h
    · rcases bind_err h with h | ⟨_, _, h⟩
      · exact ihi h
      · split at h <;> cases h; rfl
  | not a ih | shl a n ih | shr a n ih =>
    rcases bind_err h with h | ⟨_, _, h⟩
    · exact ih h
    · cases h
  | and a b iha ihb | or a b iha ihb | xor a b iha ihb | add a b iha ihb =>
    rcases bind_err h with h | ⟨_, _, h⟩
    · exact iha h
    · rcases bind_err h with h | ⟨_, _, h⟩
      · exact ihb h
      · cases h
  | cond k a b ihk iha ihb =>
    rcases bind_err h with h | ⟨_, _, h⟩
    · exact ihk h
    · split at h
      · exact iha h
      · exact ihb h
  | _ => cases h

/-- The stops of an act: outside its ports, or an arbitration that finds an empty mask. -/
def ActStop (c : Cyc) (e : Stop) : Prop := e = .refused .unmodelledOperation ∨ e = .fatal (emptyMaskFatal c.st)

theorem ite_outsidePorts_err {c' : Cyc} {p : Prop} [Decidable p] {e : Stop}
    (h : (if p then Except.ok c' else outsidePorts) = .error e) : e = .refused .unmodelledOperation := by
  split at h
  · cases h
  · cases h; rfl

theorem arbitrate_err {c : Cyc} {e : Stop} (h : arbitrate c = .error e) : e = .fatal (emptyMaskFatal c.st) := by
  rcases arbitrate_cases c with ⟨j, _, hj⟩ | ⟨_, hn⟩
  · rw [hj] at h; cases h
  · rw [hn] at h; cases h; rfl

/-- Every stop of an act. -/
theorem runAct_err {ph : Phase} {fam : Family} {c : Cyc} {a : Act} {e : Stop}
    (h : runAct ph fam c a = .error e) : ActStop c e := by
  induction a generalizing c with
  | andBus v | setRsel v | orNext v | setPage v =>
    rcases bind_err h with h | ⟨_, _, h⟩
    · exact .inl (evalVal_err h)
    · exact .inl (ite_outsidePorts_err h)
  | writeMem v | device k v | wake v | unwake v =>
    rcases bind_err h with h | ⟨_, _, h⟩
    · exact .inl (evalVal_err h)
    · cases h
  | writeR i v | loadMar i v =>
    rcases bind_err h with h | ⟨_, _, h⟩
    · exact .inl (evalVal_err h)
    · rcases bind_err h with h | ⟨_, _, h⟩
      · exact .inl (evalVal_err h)
      · cases h
  | writeS b i v =>
    rcases bind_err h with h | ⟨_, _, h⟩
    · exact .inl (evalVal_err h)
    · rcases bind_err h with h | ⟨_, _, h⟩
      · exact .inl (evalVal_err h)
      · rcases bind_err h with h | ⟨_, _, h⟩
        · exact .inl (evalVal_err h)
        · exact .inl (ite_outsidePorts_err h)
  | setSBank k b =>
    rcases bind_err h with h | ⟨_, _, h⟩
    · exact .inl (evalVal_err h)
    · rcases bind_err h with h | ⟨_, _, h⟩
      · exact .inl (evalVal_err h)
      · exact .inl (ite_outsidePorts_err h)
  | requestURamWrite | requestURamRead | setMagic | andReadMem => exact .inl (ite_outsidePorts_err h)
  | ask q =>
    cases q with
    | marStall i =>
      rcases bind_err h with h | ⟨_, _, h⟩
      · exact .inl (evalVal_err h)
      · cases h
    | _ => cases h
  | arbitrate => exact .inr (arbitrate_err h)
  | onlyIf k a ih =>
    rcases bind_err h with h | ⟨_, _, h⟩
    · exact .inl (evalVal_err h)
    · split at h
      · exact ih h
      · cases h
  | outside => cases h; exact .inl rfl

theorem emptyMaskFatal_frame {c c' : Cyc} (f : PortFrame c c') : emptyMaskFatal c'.st = emptyMaskFatal c.st := by
  unfold emptyMaskFatal; rw [f.task, f.mpc]

/-- Every stop of an installed operation. -/
theorem runActs_err {ph : Phase} {fam : Family} {acts : List Act} {c : Cyc} {e : Stop}
    (h : runActs ph fam acts c = .error e) : ActStop c e := by
  induction acts generalizing c with
  | nil => cases h
  | cons a rest ih =>
    unfold runActs at h
    split at h
    · next h1 => have := ih h; unfold ActStop at *; rwa [emptyMaskFatal_frame (runAct_frame h1)] at this
    · next h1 => cases h; exact runAct_err h1

/-- The stops of a dispatch in a cycle that started from `s`. -/
def DispatchStop (s : State) (e : Stop) : Prop := (e = .refused .unmodelledOperation) ∨
    e = .fatal (emptyMaskFatal s) ∨
  ∃ fam code, taskSpecific fam code = true ∧ e = .fatal (unsetFatal s fam code)

/-- Every stop of a dispatch whose default operation stops for an empty mask only; a refusal needs an installed operation. -/
theorem dispatch_err {ph : Phase} {fam : Family} {code : Nat} {dflt : Cyc → Except Stop Cyc} {c : Cyc} {e : Stop}
    (h : dispatch ph fam code dflt c = .error e) (hd : dflt c = .error e → e = .fatal (emptyMaskFatal c.st)) :
   DispatchStop c.st e ∧ (e = .refused .unmodelledOperation → plainSlot c.st fam code = false) := by
  unfold dispatch at h
  split at h
  · next acts hr =>
    refine ⟨?_, ?_⟩
    · rcases runActs_err h with h | h
      · exact .inl h
      · exact .inr (.inl h)
    · intro _
      by_contra hp
      rw [Bool.not_eq_false] at hp
      simp only [plainSlot, Bool.and_eq_true, Option.isNone_iff_eq_none] at hp
      unfold resolve at hr
      cases ph <;> simp only [hp.1, hp.2, otherPhase] at hr <;> split at hr <;> cases hr
  · cases h
  · next hr =>
    cases h
    refine ⟨.inr (.inr ⟨fam, code, ?_, rfl⟩), fun h => by cases h⟩
    unfold resolve at hr
    split at hr
    · cases hr
    · cases hr
    · split at hr
      · assumption
      · cases hr
  · have := hd h; subst this; exact ⟨.inr (.inl rfl), fun h => by cases h⟩

theorem DispatchStop.of_frame {c c' : Cyc} {e : Stop} (f : PortFrame c c')
    (h : DispatchStop c'.st e) : DispatchStop c.st e := by
  unfold DispatchStop unsetFatal at *; rw [emptyMaskFatal_frame f, f.task, f.mpc] at h; exact h

theorem runF2_err {ph : Phase} {c : Cyc} {e : Stop}
    (h : runF2 ph c = .error e) : DispatchStop c.st e ∧
    (e = .refused .unmodelledOperation → c.d.f2 ≠ c.st.cfg.f2Const ∧ plainSlot c.st .f2 c.d.f2.toNat = false) := by
  unfold runF2 at h
  split at h
  · cases h
  · next hne =>
    have : DispatchStop c.st e ∧ (e = .refused .unmodelledOperation → plainSlot c.st .f2 c.d.f2.toNat = false) := by
      cases ph
      · exact dispatch_err h (fun h => by cases h)
      · exact dispatch_err h (fun h => by unfold f2LateDefault at h; split at h <;> cases h)
    exact ⟨this.1, fun h => ⟨hne, this.2 h⟩⟩
theorem runF1_err {ph : Phase} {c : Cyc} {e : Stop}
    (h : runF1 ph c = .error e) : DispatchStop c.st e ∧
    (e = .refused .unmodelledOperation → c.d.f1 ≠ c.st.cfg.f1Const ∧ plainSlot c.st .f1 c.d.f1.toNat = false) := by
  unfold runF1 at h
  split at h
  · cases h
  · next hne =>
    have : DispatchStop c.st e ∧ (e = .refused .unmodelledOperation → plainSlot c.st .f1 c.d.f1.toNat = false) := by
      cases ph
      · exact dispatch_err h (fun h => by unfold f1EarlyDefault at h; split at h; exact arbitrate_err h; cases h)
      · exact dispatch_err h (fun h => by unfold f1LateDefault at h; split at h <;> cases h)
    exact ⟨this.1, fun h => ⟨hne, this.2 h⟩⟩
theorem runBs_err {ph : Phase} {c : Cyc} {e : Stop}
    (h : runBs ph c = .error e) : DispatchStop c.st e ∧
    (e = .refused .unmodelledOperation → constSel c.st.cfg c.d = false ∧
    plainSlot c.st .bs c.d.bs.toNat = false) := by
  unfold runBs at h
  split at h
  · cases h
  · next hne =>
    have : DispatchStop c.st e ∧ (e = .refused .unmodelledOperation → plainSlot c.st .bs c.d.bs.toNat = false) := by
      cases ph
      · exact dispatch_err h (fun h => by unfold bsEarlyDefault at h; split at h <;> cases h)
      · exact dispatch_err h (fun h => by unfold bsLateDefault at h; split at h <;> cases h)
    exact ⟨this.1, fun h => ⟨by simpa using hne, this.2 h⟩⟩

theorem plainSlot_congr {u s : State} (h1 : u.cfg = s.cfg)
    (h2 : u.task = s.task) (fam : Family) (code : Nat) : plainSlot u fam code = plainSlot s fam code := by
  unfold plainSlot; rw [h1, h2]

theorem plain_false_of_f2 {d : Microword} {s : State} (h1 : d.f2 ≠ s.cfg.f2Const)
    (h2 : plainSlot s .f2 d.f2.toNat = false) : plain d s = false := by simp [plain, h1, h2]
theorem plain_false_of_f1 {d : Microword} {s : State} (h1 : d.f1 ≠ s.cfg.f1Const)
    (h2 : plainSlot s .f1 d.f1.toNat = false) : plain d s = false := by simp [plain, h1, h2]
theorem plain_false_of_bs {d : Microword} {s : State} (h1 : constSel s.cfg d = false)
    (h2 : plainSlot s .bs d.bs.toNat = false) : plain d s = false := by simp [plain, h1, h2]

/-- Every stop of the pending read. -/
theorem readPerform_err {d : Microword} {s : State} {e : Stop} (h : readPerform (startCycle d s) = .error e) :
    s.rdPend = true ∧ ((ramRomsel s.rdAddr = true ∧ e = .refused .romReadThroughRamPort) ∨
    ∃ b, bankInRange s.cfg (ramBank s.rdAddr) = some b ∧
      s.store.read (ramAddr s.cfg b (ramWord s.rdAddr)) = none ∧
    e = .fault (.unwrittenRam b (ramWord s.rdAddr))) := by
  unfold readPerform at h
  split at h
  · next hp =>
    refine ⟨hp, ?_⟩
    split at h
    · next hr => cases h; exact .inl ⟨hr, rfl⟩
    · split at h
      · cases h
      · next e' he =>
        cases h
        right
        unfold uRamRead at he
        split at he
        · cases he
        · next b hb =>
          refine ⟨b, hb, ?_⟩
          split at he
          · next hn => cases he; exact ⟨hn, rfl⟩
          · cases he
  · cases h

/-- Every stop of a cycle. -/
theorem cycleBody_err {d : Microword} {s : State} {e : Stop}
    (h : cycleBody d s = .error e) : readPerform (startCycle d s) = .error e ∨ (DispatchStop s e ∧
    (e = .refused .unmodelledOperation → plain d s = false)) := by
  unfold cycleBody at h
  rcases bind_err h with h | ⟨c, hc, h⟩
  · unfold earlyPhase at h
    rcases bind_err h with h | ⟨c0, h0, h⟩
    · exact .inl h
    have f0 := (readPerform_frame h0).trans (constantPath_frame c0)
    rcases bind_err h with h | ⟨c1, h1, h⟩
    · right
      have := runF2_err h
      rw [plainSlot_congr f0.cfg f0.task, f0.d, f0.cfg] at this
      exact ⟨DispatchStop.of_frame f0 this.1, fun h => plain_false_of_f2 (this.2 h).1 (this.2 h).2⟩
    have f1 := f0.trans (runF2_frame h1)
    rcases bind_err h with h | ⟨c2, h2, h⟩
    · right
      have := runBs_err h
      rw [plainSlot_congr f1.cfg f1.task, f1.d, f1.cfg] at this
      exact ⟨DispatchStop.of_frame f1 this.1, fun h => plain_false_of_bs (this.2 h).1 (this.2 h).2⟩
    have f2 := f1.trans (runBs_frame h2)
    right
    have := runF1_err h
    rw [plainSlot_congr f2.cfg f2.task, f2.d, f2.cfg] at this
    exact ⟨DispatchStop.of_frame f2 this.1, fun h => plain_false_of_f1 (this.2 h).1 (this.2 h).2⟩
  · right
    have f := earlyPhase_frame hc
    have hcfg : (aluPhase c).st.cfg = s.cfg := by simp [aluPhase, f.cfg, startCycle]
    have htask : (aluPhase c).st.task = s.task := by simp [aluPhase, f.task, startCycle]
    have hmpc : (aluPhase c).st.mpc = s.mpc := by simp [aluPhase, f.mpc, startCycle]
    have hd : (aluPhase c).d = d := by simp [aluPhase, f.d, startCycle]
    have tr : ∀ {c' : Cyc}, PortFrame (aluPhase c) c' → DispatchStop c'.st e → DispatchStop s e := by
      intro c' g h
      unfold DispatchStop unsetFatal emptyMaskFatal at *; rw [g.task, g.mpc, htask, hmpc] at h; exact h
    rcases bind_err h with h | ⟨c', hc', h⟩
    · unfold latePhase at h
      rcases bind_err h with h | ⟨c1, h1, h⟩
      · have := runF1_err h
        rw [plainSlot_congr hcfg htask, hd, hcfg] at this
        exact ⟨tr (PortFrame.refl _) this.1, fun h => plain_false_of_f1 (this.2 h).1 (this.2 h).2⟩
      have f1 := runF1_frame h1
      rcases bind_err h with h | ⟨c2, h2, h⟩
      · have := runF2_err h
        rw [plainSlot_congr (f1.cfg.trans hcfg) (f1.task.trans htask), f1.d, f1.cfg, hd, hcfg] at this
        exact ⟨tr f1 this.1, fun h => plain_false_of_f2 (this.2 h).1 (this.2 h).2⟩
      have f2 := f1.trans (runF2_frame h2)
      have := runBs_err h
      rw [plainSlot_congr (f2.cfg.trans hcfg) (f2.task.trans htask), f2.d, f2.cfg, hd, hcfg] at this
      exact ⟨tr f2 this.1, fun h => plain_false_of_bs (this.2 h).1 (this.2 h).2⟩
    · cases h

end Sys2Proof.Machine
end

