-- ==== Sys2Proof/Machine/Names.lean ====
section
/-! DEFINITION. The debug names (R285), the text of a fatal report (R270), and the text of a microword (R108). -/

namespace Sys2Proof.Machine

/-- A number in octal digits, from its `n` low octal places, without leading zeros. -/
def octalDigits : Nat → Nat → String
  | 0, _ => ""
  | n + 1, x => if x < 8 then toString x else octalDigits n (x / 8) ++ toString (x % 8)

/-- A number as this spec writes octal. -/
def octal (x : Nat) : String := "0o" ++ octalDigits 12 x

/-- Entry `i` of a name table. -/
def nameAt : List String → Nat → String
  | [], _ => "?"
  | n :: _, 0 => n
  | _ :: rest, i + 1 => nameAt rest i

/-- The name of a task (R285). -/
def taskName (k : Task) : String := "task" ++ toString k.toNat

/-- All names of a task: task 0 is also `emu` (R285). -/
def taskNames (k : Task) : List String := if k = 0 then [taskName k, "emu"] else [taskName k]

/-- The names of all sixteen tasks, in order (R285). -/
def allTaskNames : List String := (List.range 16).flatMap (fun k => taskNames (BitVec.ofNat 4 k))

/-- The name of an R register. -/
def rName (i : RegNum) : String := "R" ++ toString i.toNat

/-- The name of an S register. -/
def sName (b : Nat) (i : RegNum) : String := "S" ++ toString b ++ "." ++ toString i.toNat

/-- The latch names. -/
def latchNames : List String := ["L", "T", "M"]

/-- The names of all registers of a configuration, in order: R, the latches, and S bank by bank (R285). -/
def allRegisterNames (c : Config) : List String :=
  (List.range 32).map (fun i => rName (BitVec.ofNat 5 i)) ++ latchNames ++
    (List.range c.sBanks).flatMap (fun b => (List.range 32).map (fun i => sName b (BitVec.ofNat 5 i)))

/-- The ALU function names (R120). -/
def aluNames : List String :=
  ["BUS", "T", "BUS_OR_T", "BUS_AND_T", "BUS_XOR_T", "BUS_PLUS_1", "BUS_MINUS_1", "BUS_PLUS_T", "BUS_MINUS_T",
    "BUS_MINUS_T_MINUS_1", "BUS_PLUS_T_PLUS_1", "BUS_PLUS_SKIP", "BUS_DOT_T", "BUS_AND_NOT_T", "UNDEF14", "UNDEF15"]

/-- The bus-source names (R102, R285). -/
def bsNames : List String := ["READR", "LOADR", "NONE", "BS3", "BS4", "READMD", "MOUSE", "DISP"]

/-- The F1 names (R102, R285). -/
def f1Names : List String :=
  ["NONE", "LOADMAR", "TASK", "BLOCK", "LLSH1", "LRSH1", "LLCY8", "CONST",
    "F1_10", "F1_11", "F1_12", "F1_13", "F1_14", "F1_15", "F1_16", "F1_17"]

/-- The F2 names (R102, R285). -/
def f2Names : List String :=
  ["NONE", "BUSEQ0", "SHLT0", "SHEQ0", "BUS", "ALUCY", "LOADMD", "CONST",
    "F2_10", "F2_11", "F2_12", "F2_13", "F2_14", "F2_15", "F2_16", "F2_17"]

/-- The shared name table of a selector family (R102, R285). -/
def selectorNames : Family → List String
  | .bs => bsNames
  | .f1 => f1Names
  | .f2 => f2Names

/-- The name an installer gave a task's selector value, if any (R285). -/
def installedName : List SlotName → Task → Family → Nat → Option String
  | [], _, _, _ => none
  | n :: rest, task, fam, code =>
    if n.task = task ∧ n.family = fam ∧ n.code = code then some n.name else installedName rest task fam code

/-- The debug name of a task's selector value: its installer's name, else that of the shared table, which calls a task-specific
slot BS3, F1_10 and so on (R285). R285 gives an installer's name to a task-specific slot only: that a name listed for a value 0
to 7 replaces the mnemonic of R102 too, and that a slot need not be filled to be named, is the model's (DESIGN CHOICE,
notes/assumptions 25). -/
def selectorName (c : Config) (task : Task) (fam : Family) (code : Nat) : String :=
  (installedName c.slotNames task fam code).getD (nameAt (selectorNames fam) code)

/-- A selector value as the rules' examples and the text form write it: its name, or the number of a task-specific slot
(R108, R271, notes/assumptions 19). -/
def selectorText (fam : Family) (code : Nat) : String :=
  match fam with
  | .bs => if code == 3 || code == 4 then toString code else nameAt bsNames code
  | .f1 => if code < 8 then nameAt f1Names code else octal code
  | .f2 => if code < 8 then nameAt f2Names code else octal code

/-- The name of a selector family. -/
def familyName : Family → String
  | .bs => "BS"
  | .f1 => "F1"
  | .f2 => "F2"

/-- The field of a fatal report: the family and its value, as R271's example and the test vectors write it (R270 to R272). -/
def fieldName (fam : Family) (code : Nat) : String := familyName fam ++ " " ++ selectorText fam code

/-- The name of a fatal kind. -/
def fatalKindName : FatalKind → String
  | .unsetTaskSpecific => "UnsetTaskSpecific"
  | .emptyWakeupMask => "EmptyWakeupMask"

/-- The text of a fatal report by the debug names of R285 (R270, notes/assumptions 19). -/
def fatalReportNamed (c : Config) (f : Fatal) : String :=
  fatalKindName f.kind ++ ", " ++ taskName f.task ++ ", " ++ octal f.mpc.toNat ++ ", " ++ familyName f.family ++ " " ++
    selectorName c f.task f.family f.code

/-- The text of a fatal report: kind, task, micro address, field, in the form of R271's example (R270, notes/assumptions 19). -/
def fatalReport (f : Fatal) : String :=
  fatalKindName f.kind ++ ", " ++ toString f.task.toNat ++ ", " ++ octal f.mpc.toNat ++ ", " ++ fieldName f.family f.code

/-- A microword at an address in this spec's own text form (R108). F1 and F2 are left out where they are NONE. -/
def render (addr : Nat) (d : Microword) : String :=
  "@" ++ octal addr ++ ": R" ++ toString d.rsel.toNat ++ " " ++ nameAt aluNames d.aluf.toNat ++
    " BS=" ++ selectorText .bs d.bs.toNat ++
    (if d.f1 == 0 then "" else " F1=" ++ selectorText .f1 d.f1.toNat) ++
    (if d.f2 == 0 then "" else " F2=" ++ selectorText .f2 d.f2.toNat) ++
    (if d.loadt then " LT" else "") ++ (if d.loadl then " LL" else "") ++ " -> " ++ octal d.next.toNat

end Sys2Proof.Machine
end

