-- ==== Sys2Proof/Tests/Slice0.lean ====
section
/-! SUPPORT. The model's own tests: well-formedness, written-out encodings, one-step vectors of 95_test_vectors.md, and a
witness for the hypotheses of every statement. Expected values come from the spec's vectors and rules. -/

namespace Sys2Proof.Tests

open Sys2Proof Sys2Proof.Machine

/-! ## Helpers -/

/-- What a next state shows; nothing where the outcome is a fault or a refusal. -/
def look {α : Type} (o : Host.Outcome State Fault Refusal) (f : State → α) : Option α :=
  match o with
  | .next u => some (f u)
  | _ => none

/-- The fault of an outcome. -/
def faultOf (o : Host.Outcome State Fault Refusal) : Option Fault :=
  match o with
  | .fault e => some e
  | _ => none

/-- The refusal of an outcome. -/
def refusalOf (o : Host.Outcome State Fault Refusal) : Option Refusal :=
  match o with
  | .refused r => some r
  | _ => none

/-- Whether an outcome is a next state. -/
def completes (o : Host.Outcome State Fault Refusal) : Bool := (look o (fun _ => ())).isSome

/-- A register file that holds the given values and else 0. -/
def regs (rs : List (RegNum × Word)) : Vector Word 32 := rs.foldl (fun v p => set32 v p.1 p.2) (Vector.replicate 32 0)

/-- The constants of V7, P1 and P4. -/
def vectorConfig : Config := { defaultConfig with constRom := [(0, 0x0000), (8, 0x0005), (9, 0x0003), (10, 0x0F0F), (11, 0x0B0B)] }

/-- A state after cold reset under the constants of the vectors and the given installed operations, with registers set. -/
def small (table : List (Slot × Entry)) (rs : List (RegNum × Word)) : State :=
  { State.cold { vectorConfig with table := table } with r := regs rs }

/-- An installed operation of task 0. -/
def slot0 (ph : Phase) (fam : Family) (code : Nat) (acts : List Act) : Slot × Entry := (⟨ph, 0, fam, code⟩, .op acts)

/-- Task 0's slots all filled: each task-specific value has a late operation that writes R[30]. -/
def filled : List (Slot × Entry) :=
  ([3, 4].map (fun k => slot0 .late .bs k [.writeR (.lit 30) (.lit 0x0B50)])) ++
    ((List.range 8).map (fun k => slot0 .late .f1 (8 + k) [.writeR (.lit 30) (.lit 0x0F10)])) ++
    ((List.range 8).map (fun k => slot0 .late .f2 (8 + k) [.writeR (.lit 30) (.lit 0x0F20)]))

/-- Quiet inputs with what the memory and the hooks answer (V9). -/
def vectorInputs : Inputs := { quietInputs with readMem := 0x00FF, mouse := 0xFFF0, disp := 0x0042 }

/-! ## Well-formedness: each check refuses an instruction whose row does not name its word -/

/-- Ill-formed terms of the ALU rows. -/
theorem test_ill_formed_alu :
    WellFormed (.aluBus 0 2 0 0 false false 0) = false ∧
      WellFormed (.aluT 0 2 0 0 false false 0) = false ∧
      WellFormed (.aluBusOrT 0 2 0 0 false false 0) = false ∧
      WellFormed (.aluBusAndT 0 2 0 0 false false 0) = false ∧
      WellFormed (.aluBusXorT 0 2 0 0 false false 0) = false ∧
      WellFormed (.aluBusPlus1 0 2 0 0 false false 0) = false ∧
      WellFormed (.aluBusMinus1 0 2 0 0 false false 0) = false ∧
      WellFormed (.aluBusPlusT 0 2 0 0 false false 0) = false ∧
      WellFormed (.aluBusMinusT 0 2 0 0 false false 0) = false ∧
      WellFormed (.aluBusMinusTMinus1 0 2 0 0 false false 0) = false ∧
      WellFormed (.aluBusPlusTPlus1 0 2 0 0 false false 0) = false ∧
      WellFormed (.aluBusPlusSkip 0 2 0 0 false false 0) = false ∧
      WellFormed (.aluBusDotT 0 2 0 0 false false 0) = false ∧
      WellFormed (.aluBusAndNotT 0 2 0 0 false false 0) = false ∧
      WellFormed (.aluUndef14 0 2 0 0 false false 0) = false ∧
      WellFormed (.aluUndef15 0 2 0 0 false false 0) = false := by
  decide

/-- Ill-formed terms of the BS rows. -/
theorem test_ill_formed_bs :
    WellFormed (.bsReadr 0 0 1 0 false false 0) = false ∧
      WellFormed (.bsLoadr 0 0 1 0 false false 0) = false ∧
      WellFormed (.bsNone 0 0 1 0 false false 0) = false ∧
      WellFormed (.bsTaskSlot3 0 0 1 0 false false 0) = false ∧
      WellFormed (.bsTaskSlot4 0 0 1 0 false false 0) = false ∧
      WellFormed (.bsReadmd 0 0 1 0 false false 0) = false ∧
      WellFormed (.bsMouse 0 0 1 0 false false 0) = false ∧
      WellFormed (.bsDisp 0 0 1 0 false false 0) = false := by
  decide

/-- Ill-formed terms of the F1 rows (with 1 to 14 in F1 every word is named by its F1 row). -/
theorem test_ill_formed_f1 :
    WellFormed (.f1None 0 0 0 1 false false 0) = false ∧
      WellFormed (.f1TaskSlot0o17 0 15 7 3 true true 0) = false := by
  decide

/-- Ill-formed terms of the F2 rows. -/
theorem test_ill_formed_f2 :
    WellFormed (.f2None 0 0 0 3 false false 0) = false ∧
      WellFormed (.f2Buseq0 0 0 0 3 false false 0) = false ∧
      WellFormed (.f2Shlt0 0 0 0 3 false false 0) = false ∧
      WellFormed (.f2Sheq0 0 0 0 3 false false 0) = false ∧
      WellFormed (.f2Bus 0 0 0 3 false false 0) = false ∧
      WellFormed (.f2Alucy 0 0 0 3 false false 0) = false ∧
      WellFormed (.f2Loadmd 0 0 0 3 false false 0) = false ∧
      WellFormed (.f2Const 0 0 0 3 false false 0) = false ∧
      WellFormed (.f2TaskSlot0o10 0 0 0 3 false false 0) = false ∧
      WellFormed (.f2TaskSlot0o11 0 0 0 3 false false 0) = false ∧
      WellFormed (.f2TaskSlot0o12 0 0 0 3 false false 0) = false ∧
      WellFormed (.f2TaskSlot0o13 0 0 0 3 false false 0) = false ∧
      WellFormed (.f2TaskSlot0o14 0 0 0 3 false false 0) = false ∧
      WellFormed (.f2TaskSlot0o15 0 0 0 3 false false 0) = false ∧
      WellFormed (.f2TaskSlot0o16 0 0 0 3 false false 0) = false ∧
      WellFormed (.f2TaskSlot0o17 0 0 0 3 false false 0) = false := by
  decide

/-- Ill-formed terms of the load-flag rows. -/
theorem test_ill_formed_flags :
    WellFormed (.loadT 0 0 0 2 0 false 0) = false ∧
      WellFormed (.loadL 0 0 0 0 0 true 0) = false := by
  decide

/-! ## Decoding: words written out field by field from the encoding of R90: rsel, aluf, bs, f1, f2, loadt, loadl, next -/

/-- The ALU rows. -/
theorem test_decode_alu :
    decode 0b00011_0000_000_0000_0000_0_0_1000000000 = .aluBus 3 0 0 0 false false 512 ∧
      decode 0b00100_0001_000_0000_0000_0_0_1000000001 = .aluT 4 0 0 0 false false 513 ∧
      decode 0b00101_0010_000_0000_0000_0_0_1000000010 = .aluBusOrT 5 0 0 0 false false 514 ∧
      decode 0b00110_0011_000_0000_0000_0_0_1000000011 = .aluBusAndT 6 0 0 0 false false 515 ∧
      decode 0b00111_0100_000_0000_0000_0_0_1000000100 = .aluBusXorT 7 0 0 0 false false 516 ∧
      decode 0b01000_0101_000_0000_0000_0_0_1000000101 = .aluBusPlus1 8 0 0 0 false false 517 ∧
      decode 0b01001_0110_000_0000_0000_0_0_1000000110 = .aluBusMinus1 9 0 0 0 false false 518 ∧
      decode 0b01010_0111_000_0000_0000_0_0_1000000111 = .aluBusPlusT 10 0 0 0 false false 519 ∧
      decode 0b01011_1000_000_0000_0000_0_0_1000001000 = .aluBusMinusT 11 0 0 0 false false 520 ∧
      decode 0b01100_1001_000_0000_0000_0_0_1000001001 = .aluBusMinusTMinus1 12 0 0 0 false false 521 ∧
      decode 0b01101_1010_000_0000_0000_0_0_1000001010 = .aluBusPlusTPlus1 13 0 0 0 false false 522 ∧
      decode 0b01110_1011_000_0000_0000_0_0_1000001011 = .aluBusPlusSkip 14 0 0 0 false false 523 ∧
      decode 0b01111_1100_000_0000_0000_0_0_1000001100 = .aluBusDotT 15 0 0 0 false false 524 ∧
      decode 0b10000_1101_000_0000_0000_0_0_1000001101 = .aluBusAndNotT 16 0 0 0 false false 525 ∧
      decode 0b10001_1110_000_0000_0000_0_0_1000001110 = .aluUndef14 17 0 0 0 false false 526 ∧
      decode 0b10010_1111_000_0000_0000_0_0_1000001111 = .aluUndef15 18 0 0 0 false false 527 := by
  decide

/-- The BS rows. -/
theorem test_decode_bs :
    decode 0b00101_1111_000_1111_1111_1_1_0000001111 = .bsReadr 5 15 15 15 true true 15 ∧
      decode 0b00101_1001_001_0000_0000_1_0_0000001111 = .bsLoadr 5 9 0 0 true false 15 ∧
      decode 0b00101_1001_010_0000_0000_1_0_0000001111 = .bsNone 5 9 0 0 true false 15 ∧
      decode 0b00101_1001_011_0000_0000_1_0_0000001111 = .bsTaskSlot3 5 9 0 0 true false 15 ∧
      decode 0b00101_1001_100_0000_0000_1_0_0000001111 = .bsTaskSlot4 5 9 0 0 true false 15 ∧
      decode 0b00101_1001_101_0000_0000_1_0_0000001111 = .bsReadmd 5 9 0 0 true false 15 ∧
      decode 0b00101_1001_110_0000_0000_1_0_0000001111 = .bsMouse 5 9 0 0 true false 15 ∧
      decode 0b00101_1001_111_0000_0000_1_0_0000001111 = .bsDisp 5 9 0 0 true false 15 := by
  decide

/-- The F1 rows. -/
theorem test_decode_f1 :
    decode 0b10001_1111_111_0000_1111_1_1_0101010101 = .f1None 17 15 7 15 true true 341 ∧
      decode 0b10001_0110_001_0001_0100_0_1_0101010101 = .f1Loadmar 17 6 1 4 false true 341 ∧
      decode 0b10001_0110_001_0010_0100_0_1_0101010101 = .f1Task 17 6 1 4 false true 341 ∧
      decode 0b10001_0110_001_0011_0100_0_1_0101010101 = .f1Block 17 6 1 4 false true 341 ∧
      decode 0b10001_0110_001_0100_0100_0_1_0101010101 = .f1Llsh1 17 6 1 4 false true 341 ∧
      decode 0b10001_0110_001_0101_0100_0_1_0101010101 = .f1Lrsh1 17 6 1 4 false true 341 ∧
      decode 0b10001_0110_001_0110_0100_0_1_0101010101 = .f1Llcy8 17 6 1 4 false true 341 ∧
      decode 0b10001_0110_001_0111_0100_0_1_0101010101 = .f1Const 17 6 1 4 false true 341 ∧
      decode 0b10001_0110_001_1000_0100_0_1_0101010101 = .f1TaskSlot0o10 17 6 1 4 false true 341 ∧
      decode 0b10001_0110_001_1001_0100_0_1_0101010101 = .f1TaskSlot0o11 17 6 1 4 false true 341 ∧
      decode 0b10001_0110_001_1010_0100_0_1_0101010101 = .f1TaskSlot0o12 17 6 1 4 false true 341 ∧
      decode 0b10001_0110_001_1011_0100_0_1_0101010101 = .f1TaskSlot0o13 17 6 1 4 false true 341 ∧
      decode 0b10001_0110_001_1100_0100_0_1_0101010101 = .f1TaskSlot0o14 17 6 1 4 false true 341 ∧
      decode 0b10001_0110_001_1101_0100_0_1_0101010101 = .f1TaskSlot0o15 17 6 1 4 false true 341 ∧
      decode 0b10001_0110_001_1110_0100_0_1_0101010101 = .f1TaskSlot0o16 17 6 1 4 false true 341 ∧
      decode 0b10001_0110_001_1111_0100_0_1_0101010101 = .f1TaskSlot0o17 17 6 1 4 false true 341 := by
  decide

/-- The F2 rows. -/
theorem test_decode_f2 :
    decode 0b01001_1111_111_1111_0000_1_1_1010101010 = .f2None 9 15 7 15 true true 682 ∧
      decode 0b01001_1101_110_0000_0001_1_0_1010101010 = .f2Buseq0 9 13 6 0 true false 682 ∧
      decode 0b01001_1101_110_0000_0010_1_0_1010101010 = .f2Shlt0 9 13 6 0 true false 682 ∧
      decode 0b01001_1101_110_0000_0011_1_0_1010101010 = .f2Sheq0 9 13 6 0 true false 682 ∧
      decode 0b01001_1101_110_0000_0100_1_0_1010101010 = .f2Bus 9 13 6 0 true false 682 ∧
      decode 0b01001_1101_110_0000_0101_1_0_1010101010 = .f2Alucy 9 13 6 0 true false 682 ∧
      decode 0b01001_1101_110_0000_0110_1_0_1010101010 = .f2Loadmd 9 13 6 0 true false 682 ∧
      decode 0b01001_1101_110_0000_0111_1_0_1010101010 = .f2Const 9 13 6 0 true false 682 ∧
      decode 0b01001_1101_110_0000_1000_1_0_1010101010 = .f2TaskSlot0o10 9 13 6 0 true false 682 ∧
      decode 0b01001_1101_110_0000_1001_1_0_1010101010 = .f2TaskSlot0o11 9 13 6 0 true false 682 ∧
      decode 0b01001_1101_110_0000_1010_1_0_1010101010 = .f2TaskSlot0o12 9 13 6 0 true false 682 ∧
      decode 0b01001_1101_110_0000_1011_1_0_1010101010 = .f2TaskSlot0o13 9 13 6 0 true false 682 ∧
      decode 0b01001_1101_110_0000_1100_1_0_1010101010 = .f2TaskSlot0o14 9 13 6 0 true false 682 ∧
      decode 0b01001_1101_110_0000_1101_1_0_1010101010 = .f2TaskSlot0o15 9 13 6 0 true false 682 ∧
      decode 0b01001_1101_110_0000_1110_1_0_1010101010 = .f2TaskSlot0o16 9 13 6 0 true false 682 ∧
      decode 0b01001_1101_110_0000_1111_1_0_1010101010 = .f2TaskSlot0o17 9 13 6 0 true false 682 := by
  decide

/-- The load-flag rows. -/
theorem test_decode_flags :
    decode 0b11110_0111_000_0000_0000_1_0_0000000011 = .loadT 30 7 0 0 0 false 3 ∧
      decode 0b11110_0111_000_0000_0000_0_1_0000000011 = .loadL 30 7 0 0 0 false 3 := by
  decide

/-- A row's bits as the opcode table numbers them; more than one word is no instruction. -/
theorem test_table_bits :
    decodeTableWord 32 0x3A800FFF = some (.loadT 7 5 0 0 0 true 1023) ∧
      decodeTableWord 27 0x00010000 = some (.f1Loadmar 0 0 0 0 false false 0) ∧
      decodeTableWord 48 0 = none := by
  decide

/-! ## ALU (V1, V2) -/

/-- The cells of a row of V1. -/
def aluCells (k : SubCarry) (aluf : BitVec 4) : List (Word × Bool) :=
  [(0x0000, 0x0000), (0xFFFF, 0x0001), (0x8000, 0x8000), (0x0005, 0x0003), (0x0003, 0x0005), (0x1234, 0x1234)].map
    (fun p => ((aluFn k aluf p.1 p.2 false).alu, (aluFn k aluf p.1 p.2 false).aluc0))

theorem test_alu_bus :
    aluCells .noBorrow 0 =
      [(0x0000, true), (0xFFFF, true), (0x8000, true), (0x0005, true), (0x0003, true), (0x1234, true)] := by
  decide

theorem test_alu_t :
    aluCells .noBorrow 1 =
      [(0x0000, true), (0x0001, true), (0x8000, true), (0x0003, true), (0x0005, true), (0x1234, true)] := by
  decide

theorem test_alu_bus_or_t :
    aluCells .noBorrow 2 =
      [(0x0000, true), (0xFFFF, true), (0x8000, true), (0x0007, true), (0x0007, true), (0x1234, true)] := by
  decide

theorem test_alu_bus_and_t :
    aluCells .noBorrow 3 =
      [(0x0000, true), (0x0001, true), (0x8000, true), (0x0001, true), (0x0001, true), (0x1234, true)] := by
  decide

theorem test_alu_bus_xor_t :
    aluCells .noBorrow 4 =
      [(0x0000, true), (0xFFFE, true), (0x0000, true), (0x0006, true), (0x0006, true), (0x0000, true)] := by
  decide

theorem test_alu_bus_plus_1 :
    aluCells .noBorrow 5 =
      [(0x0001, false), (0x0000, true), (0x8001, false), (0x0006, false), (0x0004, false), (0x1235, false)] := by
  decide

theorem test_alu_bus_minus_1 :
    aluCells .noBorrow 6 =
      [(0xFFFF, false), (0xFFFE, true), (0x7FFF, true), (0x0004, true), (0x0002, true), (0x1233, true)] := by
  decide

theorem test_alu_bus_plus_t :
    aluCells .noBorrow 7 =
      [(0x0000, false), (0x0000, true), (0x0000, true), (0x0008, false), (0x0008, false), (0x2468, false)] := by
  decide

theorem test_alu_bus_minus_t :
    aluCells .noBorrow 8 =
      [(0x0000, true), (0xFFFE, true), (0x0000, true), (0x0002, true), (0xFFFE, false), (0x0000, true)] := by
  decide

theorem test_alu_bus_minus_t_minus_1 :
    aluCells .noBorrow 9 =
      [(0xFFFF, false), (0xFFFD, true), (0xFFFF, false), (0x0001, true), (0xFFFD, false), (0xFFFF, false)] := by
  decide

theorem test_alu_bus_plus_t_plus_1 :
    aluCells .noBorrow 10 =
      [(0x0001, false), (0x0001, true), (0x0001, true), (0x0009, false), (0x0009, false), (0x2469, false)] := by
  decide

theorem test_alu_bus_plus_skip :
    aluCells .noBorrow 11 =
      [(0x0000, false), (0xFFFF, false), (0x8000, false), (0x0005, false), (0x0003, false), (0x1234, false)] := by
  decide

theorem test_alu_bus_dot_t :
    aluCells .noBorrow 12 =
      [(0x0000, true), (0x0001, true), (0x8000, true), (0x0001, true), (0x0001, true), (0x1234, true)] := by
  decide

theorem test_alu_bus_and_not_t :
    aluCells .noBorrow 13 =
      [(0x0000, true), (0xFFFE, true), (0x0000, true), (0x0004, true), (0x0002, true), (0x0000, true)] := by
  decide

theorem test_alu_undef14 :
    aluCells .noBorrow 14 =
      [(0x0000, true), (0x0000, true), (0x0000, true), (0x0000, true), (0x0000, true), (0x0000, true)] := by
  decide

theorem test_alu_undef15 :
    aluCells .noBorrow 15 =
      [(0xFFFF, true), (0xFFFF, true), (0xFFFF, true), (0xFFFF, true), (0xFFFF, true), (0xFFFF, true)] := by
  decide

/-- R139: the other carry convention inverts the carry of functions 6, 8 and 9 only. -/
theorem test_alu_borrow : (aluFn .borrow 8 3 5 false).aluc0 = true ∧ (aluFn .borrow 8 3 5 false).alu = 0xFFFE ∧
    (aluCells .borrow 6).map Prod.snd = [true, false, false, false, false, false] ∧
    aluCells .borrow 7 = aluCells .noBorrow 7 := by
  decide

/-- V2. -/
theorem test_alu_skip :
    [((0x0000 : Word), false), (0x0000, true), (0x7FFF, true), (0xFFFF, false), (0xFFFF, true)].map
        (fun p => ((aluFn .noBorrow 11 p.1 0x5555 p.2).alu, (aluFn .noBorrow 11 p.1 0x5555 p.2).aluc0)) =
      [(0x0000, false), (0x0001, false), (0x8000, false), (0xFFFF, false), (0x0000, true)] := by
  decide
/-! ## Microcode store (E2, V6) and bank registers (E7) -/

/-- E2: a logical word written to RAM bank 1, word 5. -/
theorem test_store_round_trip :
    (uRamWrite State.reset 1 5 0xABCD1234).store = [(2 * 1024 + 5, 0x5432EDCB)] ∧
      uFetch (uRamWrite State.reset 1 5 0xABCD1234) (2 * 1024 + 5) = some 0xABCD1234 := by
  decide

/-- V6: the write-back ignores romsel and bits 15:14 of the address, and drops a write out of range. -/
theorem test_write_addresses :
    ([0x1005, 0x3005, 0x0805, 0xD005].map (fun a =>
        (writeBack { State.reset with wrPend := true, wrAddr := a, m := 0xABCD } 0x1234).store)) =
      [[(2 * 1024 + 5, 0x5432EDCB)], [], [(1 * 1024 + 5, 0x5432EDCB)], [(2 * 1024 + 5, 0x5432EDCB)]] := by
  decide

/-- V6: the halves read back, an out-of-range read leaves the bus, a ROM select is refused, an unwritten word faults. -/
theorem test_pending_reads :
    let s := fun a => { uRamWrite State.reset 1 5 0xABCD1234 with rdPend := true, rdAddr := a }
    let i : Instr := .loadL 0 0 2 0 0 false 4
    look (exec i (s 0x1005)) (fun u => (u.l, u.rdPend)) = some (0x1234, false) ∧
      look (exec i (s 0x1405)) (fun u => u.l) = some 0xABCD ∧
      look (exec i (s 0x3005)) (fun u => u.l) = some 0xFFFF ∧
      refusalOf (exec i (s 0x0805)) = some .romReadThroughRamPort ∧
      faultOf (exec i (s 0x1006)) = some (.unwrittenRam 1 6) := by
  decide

/-- E7. -/
theorem test_bank_registers :
    ([((0 : BitVec 4), (0x0000 : Word)), (3, 0x1234), (15, 0xFFFF), (7, 0x00A9)].map (fun p =>
        (at16 (bankRegWrite State.reset p.1 p.2).bankreg p.1, bankRegRead (bankRegWrite State.reset p.1 p.2) p.1))) =
      [(0x0, 0xFFF0), (0x4, 0xFFF4), (0xF, 0xFFFF), (0x9, 0xFFF9)] ∧
      bankRegRead State.reset 2 = 0xFFF0 := by
  decide

/-! ## Scheduler (E3) -/

/-- E3. -/
theorem test_scheduler_priority :
    [(0x0001 : BitVec 16), 0x0011, 0x8001, 0x0F00, 0x0000].map highestWakeup = [some 0, some 4, some 15, some 11, none] := by
  decide

/-! ## Commit (V3, V4) -/

/-- V3: T and LALUC0 after a word with both load flags, bus 0x0FF0 and T 0x00FF. -/
theorem test_commit_t_and_carry :
    ([0, 1, 3, 12, 5, 7, 8, 10, 14, 15].map (fun k =>
        look (microcycle ⟨1, k, 0, 0, 0, true, true, 0⟩ { small [] [(1, 0x0FF0)] with t := 0x00FF }) (fun u => (u.t, u.laluc0)))) =
      [some (0x0FF0, false), some (0x0FF0, false), some (0x0FF0, false), some (0x00F0, false), some (0x0FF1, false),
        some (0x0FF0, false), some (0x0FF0, true), some (0x10F0, false), some (0x0FF0, true), some (0x0FF0, true)] := by
  decide

/-- V4: M and S of a ram-related task and of one that is not. -/
theorem test_load_l_ram_related :
    look (exec (.loadL 1 0 0 0 0 false 0) (small [] [(1, 0x1111)])) (fun u => (u.m, readS u 0 0)) = some (0x1111, some 0x1111) ∧
      look (exec (.loadL 1 0 0 0 0 false 0) (setSBank (small [] [(1, 0x2222)]) 0 3)) (fun u => (u.m, readS u 3 0, readS u 0 0)) =
        some (0x2222, some 0x2222, some 0) ∧
      look (exec (.loadL 1 0 0 0 0 false 0) { small [] [(1, 0x3333)] with task := 4, confTask := 4 })
        (fun u => (u.l, u.m, readS u 0 0)) = some (0x3333, 0, some 0) := by
  decide

/-- V4, last row: LT only. -/
theorem test_load_t_leaves_m :
    look (exec (.loadT 1 0 0 0 0 false 0) (small [] [(1, 0x4444)])) (fun u => (u.t, u.l, u.m, readS u 0 0)) =
      some (0x4444, 0, 0, some 0) := by
  decide

/-! ## Bus, constants, registers (V7, V8, V9) -/

/-- V7: the bus, seen in L (LL added to the vector's words). -/
theorem test_constant_path :
    let s := small [] [(1, 0x00FF)]
    look (exec (.bsNone 1 0 0 0 false true 1) s) (fun u => u.l) = some 0xFFFF ∧
      look (exec (.bsReadr 1 0 0 0 false true 1) s) (fun u => u.l) = some 0x00FF ∧
      look (exec (.f1Const 1 0 0 0 false true 1) s) (fun u => u.l) = some 0x0005 ∧
      look (exec (.f2Const 1 0 1 0 false true 1) s) (fun u => (u.l, readR u 1)) = some (0x0003, 0x00FF) ∧
      look (exec (.f2Const 1 0 3 0 false true 1) s) (fun u => u.l) = some 0x0B0B ∧
      look (exec (.f1Const 0 0 0 1 false true 0o20) s) (fun u => (u.l, u.mpc)) = some (0x0000, 0o21) := by
  decide

/-- V8. -/
theorem test_write_quirk :
    readR (writeR State.reset 30 0x0007) 30 = 0x0007 ∧ readR (writeR State.reset 31 0x0007) 31 = 0x0004 ∧
      readR (writeR State.reset 31 0x1230) 31 = 0x1230 ∧
      readR (writeR { State.reset with cfg := { defaultConfig with quirkEnable := false } } 31 0xFFFF) 31 = 0xFFFF := by
  decide

/-- V9: LOADR drives 0 and writes the old L. -/
theorem test_loadr :
    look (exec (.bsLoadr 2 0 0 0 false true 0) { small [] [(3, 0x1234)] with l := 0x0008 })
      (fun u => (readR u 2, u.l, readR u 3)) = some (0x0008, 0x0000, 0x1234) := by
  decide

/-- V9: READMD, MOUSE and DISP, and the calls they make. -/
theorem test_input_sources :
    let s := { small [] [] with inputs := [vectorInputs] }
    look (exec (.bsReadmd 3 0 0 0 false true 0) s) (fun u => (u.l, u.calls)) = some (0x00FF, [.readMem]) ∧
      look (exec (.bsMouse 3 0 0 0 false true 0) s) (fun u => (u.l, u.calls)) = some (0xFFF0, [.mouse]) ∧
      look (exec (.bsDisp 3 0 0 0 false true 0) s) (fun u => (u.l, u.calls)) = some (0x0042, [.disp]) := by
  decide

/-- V9, V13: BS 3 and 4 without a slot are fatal; on the constant path they are not. -/
theorem test_unset_bus_source :
    look (exec (.bsTaskSlot3 0 0 0 0 false false 0) (small [] [])) (fun u => u.run) =
        some (.halted ⟨.unsetTaskSpecific, 0, 0, .bs, 3⟩) ∧
      look (exec (.bsTaskSlot4 0 0 0 0 false false 0) (small [] [])) (fun u => u.run) =
        some (.halted ⟨.unsetTaskSpecific, 0, 0, .bs, 4⟩) ∧
      look (exec (.bsTaskSlot3 0 0 7 0 false false 0) (small [] [])) (fun u => u.run) = some .running := by
  decide

/-- A filled BS slot runs what is installed. -/
theorem test_filled_bus_source :
    look (exec (.bsTaskSlot3 0 0 0 0 false false 0) (small filled [])) (fun u => readR u 30) = some 0x0B50 ∧
      look (exec (.bsTaskSlot4 0 0 0 0 false false 0) (small filled [])) (fun u => readR u 30) = some 0x0B50 := by
  decide

/-! ## F1 and the shifter (V10) -/

/-- V10: the shift rows with LOADR, without magic. -/
theorem test_shift_rows :
    let s := { small [] [] with l := 0x8001, t := 0x8001 }
    look (exec (.f1None 2 0 1 0 false false 0) s) (fun u => readR u 2) = some 0x8001 ∧
      look (exec (.f1Llsh1 2 0 1 0 false false 0) s) (fun u => readR u 2) = some 0x0002 ∧
      look (exec (.f1Lrsh1 2 0 1 0 false false 0) s) (fun u => readR u 2) = some 0x4000 ∧
      look (exec (.f1Llcy8 2 0 1 0 false false 0) s) (fun u => readR u 2) = some 0x0180 ∧
      look (exec (.f1Llcy8 2 0 1 0 false false 0) { s with l := 0x12AB }) (fun u => readR u 2) = some 0xAB12 := by
  decide

/-- V10: with the magic input, from an F2 slot of task 0. -/
theorem test_magic_shifts :
    let s := { small [slot0 .early .f2 8 [.setMagic]] [] with l := 0x8001, t := 0x8001 }
    look (exec (.f1Llsh1 2 0 1 8 false false 0) s) (fun u => readR u 2) = some 0x0003 ∧
      look (exec (.f1Lrsh1 2 0 1 8 false false 0) s) (fun u => readR u 2) = some 0xC000 := by
  decide

/-- V10: LOADMAR calls `load_mar(0, 0o1000)`. -/
theorem test_loadmar :
    look (exec (.f1Loadmar 0 0 0 0 false false 1) (small [] [(0, 0o1000)])) (fun u => u.calls) = some [.loadMar 0 0o1000] := by
  decide

/-- V10: TASK with mask 0x0011 selects task 4, which is not yet current; BLOCK has no effect of its own. -/
theorem test_task_and_block :
    let s := { small [] [] with wakeup := 0x0011 }
    look (exec (.f1Task 0 0 2 0 false false 1) s) (fun u => (u.task, u.confTask, u.mpc)) = some (0, 4, 1) ∧
      look (exec (.f1Block 0 0 2 0 false false 1) s) (fun u => { u with mpc := 0 }) = some s := by
  decide

/-- V13: TASK with an empty mask. -/
theorem test_task_empty_mask :
    look (exec (.f1Task 0 0 2 0 false true 1) { small [] [] with wakeup := 0, mpc := 0o40 }) (fun u => u) =
      some { small [] [] with wakeup := 0, mpc := 0o40, run := .halted ⟨.emptyWakeupMask, 0, 0o40, .f1, 2⟩ } := by
  decide

/-- V10: F1 0o10 to 0o17 without a slot are fatal, with one they run it. -/
theorem test_f1_slots :
    let is : List Instr :=
      [.f1TaskSlot0o10 0 0 2 0 false false 0, .f1TaskSlot0o11 0 0 2 0 false false 0, .f1TaskSlot0o12 0 0 2 0 false false 0,
        .f1TaskSlot0o13 0 0 2 0 false false 0, .f1TaskSlot0o14 0 0 2 0 false false 0, .f1TaskSlot0o15 0 0 2 0 false false 0,
        .f1TaskSlot0o16 0 0 2 0 false false 0, .f1TaskSlot0o17 0 0 2 0 false false 0]
    is.map (fun i => look (exec i (small [] [])) (fun u => u.run)) =
        [8, 9, 10, 11, 12, 13, 14, 15].map (fun k => some (.halted ⟨.unsetTaskSpecific, 0, 0, .f1, k⟩)) ∧
      is.all (fun i => look (exec i (small filled [])) (fun u => readR u 30) == some 0x0F10) = true := by
  decide

/-! ## F2 and the next address (V11) -/

/-- V11: BUSEQ0, SHLT0 and SHEQ0. -/
theorem test_branches_on_zero_and_sign :
    look (exec (.f2Buseq0 1 0 0 0 false false 0o20) (small [] [(1, 0)])) (fun u => u.mpc) = some 0o21 ∧
      look (exec (.f2Buseq0 1 0 0 0 false false 0o20) (small [] [(1, 1)])) (fun u => u.mpc) = some 0o20 ∧
      look (exec (.f2Buseq0 1 0 0 0 false false 0o21) (small [] [(1, 0)])) (fun u => u.mpc) = some 0o21 ∧
      look (exec (.f2Shlt0 0 0 2 0 false false 0o20) { small [] [] with l := 0x8000 }) (fun u => u.mpc) = some 0o21 ∧
      look (exec (.f2Shlt0 0 0 2 4 false false 0o20) { small [] [] with l := 0x4000 }) (fun u => u.mpc) = some 0o21 ∧
      look (exec (.f2Sheq0 0 0 2 4 false false 0o20) { small [] [] with l := 0x8000 }) (fun u => u.mpc) = some 0o21 ∧
      look (exec (.f2Sheq0 0 0 2 0 false false 0o20) { small [] [] with l := 0x0001 }) (fun u => u.mpc) = some 0o20 := by
  decide

/-- V11: BUS, ALUCY (the latch before the word), NONE and CONST. -/
theorem test_branches_on_bus_and_carry :
    look (exec (.f2Bus 1 0 0 0 false false 0o100) (small [] [(1, 3)])) (fun u => u.mpc) = some 0o103 ∧
      look (exec (.f2Bus 1 0 2 0 false false 0o100) (small [] [])) (fun u => u.mpc) = some 0o1777 ∧
      look (exec (.f2Alucy 1 0 2 0 false false 0o20) { small [] [] with laluc0 := true }) (fun u => u.mpc) = some 0o21 ∧
      look (exec (.f2Alucy 1 5 2 0 false true 0o20) (small [] [])) (fun u => (u.mpc, u.laluc0)) = some (0o20, true) ∧
      look (exec (.f2None 1 5 2 0 false true 0o20) (small [] [])) (fun u => u.mpc) = some 0o20 ∧
      look (exec (.f2Const 1 0 0 0 false true 0o20) (small [] [])) (fun u => (u.mpc, u.l)) = some (0o20, 5) := by
  decide

/-- V11: LOADMD writes the bus to memory. -/
theorem test_loadmd :
    look (exec (.f2Loadmd 1 0 0 0 false false 0o20) (small [] [(1, 0x1234)])) (fun u => (u.mpc, u.calls)) =
      some (0o20, [.writeMem 0x1234]) := by
  decide

/-- V11, V13: F2 0o10 to 0o17 without a slot are fatal, with one they run it. -/
theorem test_f2_slots :
    let is : List Instr :=
      [.f2TaskSlot0o10 0 0 2 0 false false 0, .f2TaskSlot0o11 0 0 2 0 false false 0, .f2TaskSlot0o12 0 0 2 0 false false 0,
        .f2TaskSlot0o13 0 0 2 0 false false 0, .f2TaskSlot0o14 0 0 2 0 false false 0, .f2TaskSlot0o15 0 0 2 0 false false 0,
        .f2TaskSlot0o16 0 0 2 0 false false 0, .f2TaskSlot0o17 0 0 2 0 false false 0]
    is.map (fun i => look (exec i (small [] [])) (fun u => u.run)) =
        [8, 9, 10, 11, 12, 13, 14, 15].map (fun k => some (.halted ⟨.unsetTaskSpecific, 0, 0, .f2, k⟩)) ∧
      is.all (fun i => look (exec i (small filled [])) (fun u => readR u 30) == some 0x0F20) = true := by
  decide

/-- V13, first row: the state is that of the start of the cycle. -/
theorem test_fatal_keeps_the_state :
    look (exec (.f2TaskSlot0o13 0 0 2 0 true true 0) { small [] [] with task := 5, confTask := 5, mpc := 0o40, t := 7 }) (fun u => u) =
      some { small [] [] with
        task := 5, confTask := 5, mpc := 0o40, t := 7, run := .halted ⟨.unsetTaskSpecific, 5, 0o40, .f2, 0o13⟩ } := by
  decide

/-! ## The stall (V12) -/

/-- V12: its state, stalled or not. -/
def stallState (stall : Bool) : State :=
  { small [] [(0, 0x0002)] with
    l := 0x5555, laluc0 := true, m := 0x1111, t := 0x0001, wrPend := true, wrAddr := 0x1005
    inputs := [{ quietInputs with marStall := if stall then 1 else 0 }] }

/-- V12: a stalled cycle changes nothing; the cycle without a stall stores the pending write and then calls `load_mar`. -/
theorem test_stall :
    look (exec (.f1Loadmar 0 0 2 0 false false 1) (stallState true)) (fun u => u) = some (stallState true) ∧
      look (exec (.f1Loadmar 0 0 2 0 false false 1) (stallState false)) (fun u => (u.store, u.calls, u.mpc, u.wrPend)) =
        some ([(2 * 1024 + 5, 0xEEEE0000)], [.loadMar 0 0xFFFF], 1, false) := by
  decide

/-! ## Reset and the steps of the programs (E6, V14, P1 to P4) -/

/-- E6: the first step after cold reset. -/
theorem test_cold_reset_step :
    look (step (State.reset.withFetchWord 32 0x00200401)) (fun u => ((u.l, u.laluc0, u.m), readS u 0 0, u.mpc, u.task)) =
        some ((0xFFFF, false, 0xFFFF), some 0xFFFF, 0o1, 0) ∧
      (State.reset.withFetchWord 32 0x00200401).store = [(0, 0xFFDFFBFE)] := by
  decide

/-- V14: the start addresses of a cold reset under RESET_MODE 0xFFFE, whose first fetch finds nothing. -/
theorem test_cold_reset_ram :
    let c := { defaultConfig with resetMode := 0xFFFE }
    look (coldReset c) (fun u => (u.page, u.mpc, at16 u.taskMpc 9, at16 u.taskPage 9)) = some (1, 0, 9, 0) ∧
      faultOf (step (State.cold c)) = some (.unwrittenFetch 1024) := by
  decide

/-- V14: soft reset after P4. -/
theorem test_soft_reset :
    let s := { small [] [(0, 0xFFFF)] with
      l := 0xFFFF, t := 0x0005, task := 4, reqTask := 4, confTask := 4, mpc := 5, taskMpc := set16 (bootMpcs defaultConfig) 0 2 }
    softResetAnswer s = 4 ∧
      ((softReset s).task, (softReset s).mpc, (softReset s).page, at16 (softReset s).taskMpc 0, readR (softReset s) 0,
        (softReset s).l, (softReset s).t) = (0, 0, 0, 0, 0xFFFF, 0xFFFF, 0x0005) := by
  decide

/-- P1, cycles 0 and 1. -/
theorem test_p1_constants_and_add :
    look (exec (decode 0x08070801) (small [] [])) (fun u => (u.t, u.mpc)) = some (0x0005, 1) ∧
      look (exec (decode 0x0B907402) { small [] [] with t := 0x0005 }) (fun u => (u.l, u.laluc0, u.m, readS u 0 0, u.mpc)) =
        some (0x0008, false, 0x0008, some 0x0008, 2) := by
  decide

/-- P1, cycles 2 and 3. -/
theorem test_p1_register_and_subtract :
    look (exec (decode 0x10100003) { small [] [] with l := 0x0008 }) (fun u => (readR u 2, u.mpc)) = some (0x0008, 3) ∧
      look (exec (decode 0x14000403) { small [] [(2, 0x0008)] with t := 0x0005 }) (fun u => (u.l, u.laluc0, u.m, u.mpc)) =
        some (0x0003, true, 0x0003, 3) := by
  decide

/-- P2, cycles 4 and 6. -/
theorem test_p2_count_and_branch :
    look (exec (decode 0x0B00040C) (small [] [(1, 1)])) (fun u => (u.l, u.laluc0, u.mpc)) = some (0, true, 0o14) ∧
      look (exec (decode 0x0800100A) (small [] [(1, 0)])) (fun u => u.mpc) = some 0o13 := by
  decide

/-- Task 0's slots of P3. -/
def ramPorts : List (Slot × Entry) :=
  [slot0 .late .f1 9 [.requestURamWrite], slot0 .late .f1 10 [.requestURamRead]]

/-- P3, cycle 1. -/
theorem test_p3_write_request :
    look (exec (decode 0x20090402) { small ramPorts [(4, 0xABCD)] with t := 0x1005 })
      (fun u => ((u.wrPend, u.wrAddr), u.store.length, [u.l, u.m], u.laluc0)) =
      some ((true, 0x1005), 0, [0xABCD, 0xABCD], false) := by
  decide

/-- P3, cycle 2. -/
theorem test_p3_write_and_read_request :
    look (exec (decode 0x280A0003) { small ramPorts [(5, 0x1234)] with t := 0x1005, m := 0xABCD, wrPend := true, wrAddr := 0x1005 })
      (fun u => ((u.wrPend, u.rdPend, u.rdAddr), u.store, uFetch u 0o4005)) =
      some ((false, true, 0x1005), [(0o4005, 0x5432EDCB)], some 0xABCD1234) := by
  decide

/-- P4, cycle 0. -/
theorem test_p4_task_word :
    look (exec (decode 0x08027801) { small [] [] with wakeup := 0x0011 }) (fun u => (u.t, u.task, u.confTask, u.mpc)) =
      some (0x0005, 0, 4, 1) := by
  decide

/-- P4, cycle 1: still task 0's word and task 0's writes, then the switch. -/
theorem test_p4_last_word_and_switch :
    look (exec (decode 0x00200402) { small [] [] with mpc := 1, reqTask := 4, confTask := 4 })
      (fun u => ((u.l, u.m, readS u 0 0), (u.task, u.mpc, u.page), at16 u.taskMpc 0)) =
      some ((0xFFFF, 0xFFFF, some 0xFFFF), (4, 4, 0), 2) := by
  decide

/-! ## Text forms (R108, R271) -/

/-- The examples of R108 and R271. -/
theorem test_text_forms :
    render 0 (wordFields 0x00200401) = "@0o0: R0 BUS BS=NONE LL -> 0o1" ∧
      fatalReport ⟨.unsetTaskSpecific, 5, 0o40, .f2, 0o13⟩ = "UnsetTaskSpecific, 5, 0o40, F2 0o13" := by
  decide

/-- The debug names of R285: a slot by the shared table and by its installer's name, and both names of task 0. -/
theorem test_debug_names :
    let c := { defaultConfig with slotNames := [⟨0, .f1, 0o11, "WRTRAM"⟩] }
    selectorName c 0 .f1 0o11 = "WRTRAM" ∧ selectorName c 5 .f1 0o11 = "F1_11" ∧ selectorName c 0 .bs 3 = "BS3" ∧
      fatalReportNamed c ⟨.unsetTaskSpecific, 5, 0o40, .f2, 0o13⟩ = "UnsetTaskSpecific, task5, 0o40, F2 F2_13" ∧
      taskNames 0 = ["task0", "emu"] ∧ allTaskNames.length = 17 := by
  decide

/-- Collaborator calls are ports in any phase (R245): a late read_mem, and a stall query, whose answers R registers take. -/
theorem test_late_collaborator_calls :
    look (exec (.f1TaskSlot0o10 0 0 2 0 false false 0)
        { small [slot0 .late .f1 8 [.ask .readMem, .ask (.marStall (.lit 3)), .writeR (.lit 4) (.answer 1), .writeR (.lit 5) (.answer 0)]] []
          with inputs := [{ vectorInputs with marStall := 8 }] })
      (fun u => (readR u 4, readR u 5, u.calls)) = some (0x00FF, 1, [.readMem]) := by
  decide

/-! ## Witnesses: for every statement with hypotheses, states and operands that meet them -/

def oneOfEachAlu : List Instr :=
  [.aluBus 1 2 0 0 false false 0, .aluT 1 2 0 0 false false 0, .aluBusOrT 1 2 0 0 false false 0,
    .aluBusAndT 1 2 0 0 false false 0, .aluBusXorT 1 2 0 0 false false 0, .aluBusPlus1 1 2 0 0 false false 0,
    .aluBusMinus1 1 2 0 0 false false 0, .aluBusPlusT 1 2 0 0 false false 0, .aluBusMinusT 1 2 0 0 false false 0,
    .aluBusMinusTMinus1 1 2 0 0 false false 0, .aluBusPlusTPlus1 1 2 0 0 false false 0,
    .aluBusPlusSkip 1 2 0 0 false false 0, .aluBusDotT 1 2 0 0 false false 0, .aluBusAndNotT 1 2 0 0 false false 0,
    .aluUndef14 1 2 0 0 false false 0, .aluUndef15 1 2 0 0 false false 0]

def oneOfEachBs : List Instr :=
  [.bsReadr 1 0 0 0 false false 0, .bsLoadr 1 0 0 0 false false 0, .bsNone 1 0 0 0 false false 0,
    .bsTaskSlot3 1 0 0 0 false false 0, .bsTaskSlot4 1 0 0 0 false false 0, .bsReadmd 1 0 0 0 false false 0,
    .bsMouse 1 0 0 0 false false 0, .bsDisp 1 0 0 0 false false 0]

def oneOfEachF1 : List Instr :=
  [.f1None 1 0 2 0 false false 0, .f1Loadmar 1 0 2 0 false false 0, .f1Task 1 0 2 0 false false 0,
    .f1Block 1 0 2 0 false false 0, .f1Llsh1 1 0 2 0 false false 0, .f1Lrsh1 1 0 2 0 false false 0,
    .f1Llcy8 1 0 2 0 false false 0, .f1Const 1 0 2 0 false false 0, .f1TaskSlot0o10 1 0 2 0 false false 0,
    .f1TaskSlot0o11 1 0 2 0 false false 0, .f1TaskSlot0o12 1 0 2 0 false false 0,
    .f1TaskSlot0o13 1 0 2 0 false false 0, .f1TaskSlot0o14 1 0 2 0 false false 0,
    .f1TaskSlot0o15 1 0 2 0 false false 0, .f1TaskSlot0o16 1 0 2 0 false false 0,
    .f1TaskSlot0o17 1 0 2 0 false false 0]

def oneOfEachF2 : List Instr :=
  [.f2None 1 0 2 0 false false 0, .f2Buseq0 1 0 2 0 false false 0, .f2Shlt0 1 0 2 0 false false 0,
    .f2Sheq0 1 0 2 0 false false 0, .f2Bus 1 0 2 0 false false 0, .f2Alucy 1 0 2 0 false false 0,
    .f2Loadmd 1 0 2 0 false false 0, .f2Const 1 0 2 0 false false 0, .f2TaskSlot0o10 1 0 2 0 false false 0,
    .f2TaskSlot0o11 1 0 2 0 false false 0, .f2TaskSlot0o12 1 0 2 0 false false 0,
    .f2TaskSlot0o13 1 0 2 0 false false 0, .f2TaskSlot0o14 1 0 2 0 false false 0,
    .f2TaskSlot0o15 1 0 2 0 false false 0, .f2TaskSlot0o16 1 0 2 0 false false 0,
    .f2TaskSlot0o17 1 0 2 0 false false 0]

def oneOfEachFlag : List Instr :=
  [.loadT 1 0 2 0 0 false 0, .loadL 1 0 2 0 0 false 0]

/-- One instruction of each row. -/
def oneOfEach : List Instr := oneOfEachAlu ++ oneOfEachBs ++ oneOfEachF1 ++ oneOfEachF2 ++ oneOfEachFlag

/-- The state of the witnesses: task 0 of the vectors' machine, a register set, with these installed operations. -/
def wit (table : List (Slot × Entry)) : State := { small table [(1, 0x1234)] with inputs := [vectorInputs] }

theorem wit_wellFormed : (wit []).WellFormed := ⟨by decide, by decide, by decide, by decide, by decide, by decide⟩

theorem wit_filled_wellFormed : (wit filled).WellFormed := ⟨by decide, by decide, by decide, by decide, by decide, by decide⟩

/-- The rows with a default entry or none of their own to dispatch: all but the task-specific slots. -/
def defaultRows : List Instr := oneOfEach.filter (fun i => ready (instrFields i) (wit []))

/-- `ready` and `plain` together. -/
def readyPlain (i : Instr) (s : State) : Bool := ready (instrFields i) s && plain (instrFields i) s

theorem witness_DecodeOfEncode :
    (oneOfEach.map (fun i => decode (encode i))).all WellFormed = true ∧ WellFormed (.bsNone 1 15 0 0 true true 1023) = true := by
  decide

theorem witness_RowsOfOneWordAgree :
    encode (.aluBus 0 2 0 0 false true 1) = encode (.bsNone 0 0 0 0 false true 1) ∧
      (.aluBus 0 2 0 0 false true 1 : Instr) ≠ .bsNone 0 0 0 0 false true 1 := by
  decide

theorem witness_StepRunsTheDecodedInstruction :
    let s := loadWord (wit []) 0 (encode (.bsNone 0 0 0 0 false true 1))
    s.run = .running ∧ WellFormed (.bsNone 0 0 0 0 false true 1) = true ∧
      s.store.read (s.page * 1024 + s.mpc.toNat) = some (encode (.bsNone 0 0 0 0 false true 1) ^^^ s.cfg.invMask) := by
  decide

theorem witness_UnwrittenFetchFaults :
    (wit []).run = .running ∧ (wit []).store.read ((wit []).page * 1024 + (wit []).mpc.toNat) = none := by
  decide

/-- A well-formed configuration, a word that ends in a fatal error, and a halted core. -/
theorem witness_HaltedCoreTakesNoCycle :
    defaultConfig.wf = true ∧
      ((wit []).run = .running ∧ stalled (instrFields (.bsTaskSlot3 0 0 0 0 false false 0)) (wit []) = false ∧
        (match cycleBody (instrFields (.bsTaskSlot3 0 0 0 0 false false 0)) (wit []) with
          | .error (.fatal f) => f == ⟨.unsetTaskSpecific, 0, 0, .bs, 3⟩
          | _ => false) = true) ∧
      (takeFatal (wit []) ⟨.emptyWakeupMask, 0, 0, .f1, 2⟩).run = .halted ⟨.emptyWakeupMask, 0, 0, .f1, 2⟩ := by
  decide

/-- Each of the three queries; the highest register select and the largest threshold among them. -/
theorem witness_StalledWordChangesNothing :
    let x : Inputs := { quietInputs with marStall := 0x80000000, writeStall := true, readStall := true }
    let s := { wit [] with inputs := [x] }
    ((instrFields (.f1Loadmar 31 0 2 0 false false 0)).f1 = 1 ∧ s.input.marStall.getLsbD 31 = true) ∧
      ((instrFields (.f2Loadmd 0 0 2 0 false false 0)).f2 = 6 ∧ s.input.writeStall = true) ∧
      ((instrFields (.bsReadmd 0 0 0 0 false false 0)).bs = 5 ∧ (0 : BitVec 4) ≠ s.cfg.f1Const ∧ (0 : BitVec 4) ≠ s.cfg.f2Const ∧
        5 < s.cfg.bsConstThreshold ∧ s.input.readStall = true) := by
  decide

theorem witness_StallsAreIdempotent :
    let x : Inputs := { quietInputs with writeStall := true }
    let s := loadWord { wit [] with inputs := [x, x] } 0 0x00206001
    s.run = .running ∧ fetch s = some 0x00206001 ∧
      ∀ k < 2, stalled (wordFields 0x00206001) { s with ticks := s.ticks + k, inputs := s.inputs.drop k } = true ∧
        ({ s with ticks := s.ticks + k, inputs := s.inputs.drop k } : State).input.events = [] := by
  decide

/-- Every row has a word that is ready, in a well-formed state (`wit_filled_wellFormed`) whose slots are filled. -/
theorem witness_ReadyWordsComplete : oneOfEach.all (fun i => ready (instrFields i) (wit filled)) = true := by
  decide

/-- All 40 rows but the 18 task-specific slots have a ready word with default entries (`wit_wellFormed`). -/
theorem witness_PlainWordsRefineTheirRules :
    defaultRows.length = 40 ∧ defaultRows.all (fun i => readyPlain i (wit [])) = true := by
  decide

theorem witness_LogicRowsLatch :
    ([.aluBus 1 2 0 0 true true 0, .aluT 1 2 0 0 true true 0, .aluBusOrT 1 2 0 0 true true 0, .aluBusAndT 1 2 0 0 true true 0,
      .aluBusXorT 1 2 0 0 true true 0, .aluBusDotT 1 2 0 0 true true 0, .aluBusAndNotT 1 2 0 0 true true 0] : List Instr).all
      (fun i => ready (instrFields i) (wit [])) = true := by
  decide

theorem witness_AddingRowsLatch :
    ([.aluBusPlus1 1 2 0 0 true true 0, .aluBusPlusT 1 2 0 0 true true 0, .aluBusPlusTPlus1 1 2 0 0 true true 0,
      .aluBusPlusSkip 1 2 0 0 true true 0] : List Instr).all (fun i => ready (instrFields i) (wit [])) = true := by
  decide

theorem witness_SubtractingRowsLatch :
    ([.aluBusMinus1 1 2 0 0 true true 0, .aluBusMinusT 1 2 0 0 true true 0, .aluBusMinusTMinus1 1 2 0 0 true true 0] :
      List Instr).all (fun i => ready (instrFields i) (wit [])) = true := by
  decide

/-- Both phases of a word answer, in the well-formed state `wit []`. -/
theorem witness_CompletedCyclesCommit :
    (wit []).run = .running ∧ stalled (instrFields (.loadL 1 0 0 0 0 true 0)) (wit []) = false ∧
      (match earlyPhase (instrFields (.loadL 1 0 0 0 0 true 0)) (wit []) with
        | .ok c => (latePhase (aluPhase c)).isOk
        | .error _ => false) = true := by
  decide

theorem witness_UndefinedFunctionRowsLatch :
    ready (instrFields (.aluUndef14 1 2 0 0 true true 0)) (wit []) = true ∧
      ready (instrFields (.aluUndef15 1 2 0 0 true true 0)) (wit []) = true := by
  decide

/-- A ram-related task and one that is not. -/
theorem witness_LoadFlagRowsCommit :
    let s := { wit [] with task := 4, confTask := 4 }
    ready (instrFields (.loadT 1 0 0 0 0 true 0)) (wit []) = true ∧ ready (instrFields (.loadL 1 0 0 0 0 true 0)) (wit []) = true ∧
      ramRelated (wit []).cfg (wit []).task = true ∧ ready (instrFields (.loadL 1 0 0 0 0 true 0)) s = true ∧
      ramRelated s.cfg s.task = false := by
  decide

/-- Each of the four reasons: no load, a task that is not ram-related, another bank, another register. -/
theorem witness_OnlyLoadsOfRamTasksWriteS :
    let s := { wit [] with task := 4, confTask := 4 }
    (plain (instrFields (.bsNone 1 0 0 0 false false 0)) (wit []) = true ∧
        completes (exec (.bsNone 1 0 0 0 false false 0) (wit [])) = true) ∧
      (plain (instrFields (.loadL 1 0 2 0 0 false 0)) s = true ∧ completes (exec (.loadL 1 0 2 0 0 false 0) s) = true ∧
        ramRelated s.cfg s.task = false) ∧
      (plain (instrFields (.loadL 1 0 2 0 0 false 0)) (wit []) = true ∧
        completes (exec (.loadL 1 0 2 0 0 false 0) (wit [])) = true ∧ 7 ≠ at16 (wit []).sbank 0 ∧ (31 : RegNum) ≠ 0) := by
  decide

theorem witness_BusSourceRowsDriveTheBus :
    ([.bsReadr 1 0 0 0 false true 0, .bsLoadr 1 0 0 0 false true 0, .bsNone 1 0 0 0 false true 0, .bsReadmd 1 0 0 0 false true 0,
      .bsMouse 1 0 0 0 false true 0, .bsDisp 1 0 0 0 false true 0] : List Instr).all
      (fun i => readyPlain i (wit []) && !constSel (wit []).cfg (instrFields i)) = true := by
  decide

/-- The task-specific BS values 3 and 4 among them. -/
theorem witness_ConstantRowsBypassTheBusSource :
    (wit []).cfg.f1Const = 7 ∧ (wit []).cfg.f2Const = 7 ∧ readyPlain (.f1Const 31 0 3 0 false true 0) (wit []) = true ∧
      readyPlain (.f2Const 31 0 4 0 false true 0) (wit []) = true := by
  decide

theorem witness_LoadrWritesTheShifterOutput :
    readyPlain (.bsLoadr 31 0 4 0 false true 0) (wit []) = true ∧
      constSel (wit []).cfg (instrFields (.bsLoadr 31 0 4 0 false true 0)) = false := by
  decide

theorem witness_ShiftRowsShiftL :
    ([.f1Llsh1 2 0 1 0 false true 0, .f1Lrsh1 2 0 1 0 false true 0, .f1Llcy8 2 0 1 0 false true 0] : List Instr).all
      (fun i => readyPlain i (wit []) && !constSel (wit []).cfg (instrFields i)) = true ∧
      (2 : RegNum) ≠ (wit []).cfg.quirkReg := by
  decide

/-- A shift value with an installed operation that writes the very register. -/
theorem witness_ShiftRowsShiftL_installed :
    let s := wit [slot0 .late .f1 4 [.writeR (.lit 2) (.lit 7)]]
    let d := instrFields (.f1Llsh1 2 0 1 0 false true 0)
    ready d s = true ∧ plainSlot s .bs 1 = true ∧ plainSlot s .f2 d.f2.toNat = true ∧ constSel s.cfg d = false ∧
      plainSlot s .f1 4 = false := by
  decide

/-- Task 0's F2 slot 0o10 as the magic operation. -/
theorem witness_MagicShiftsChainT :
    let s := wit [slot0 .early .f2 8 [.setMagic]]
    s.task = 0 ∧ 8 ≤ (8 : BitVec 4).toNat ∧ (8 : BitVec 4) ≠ s.cfg.f2Const ∧
      lookupSlot s.cfg.table ⟨.early, 0, .f2, 8⟩ = some (.op [.setMagic]) ∧ lookupSlot s.cfg.table ⟨.late, 0, .f2, 8⟩ = none ∧
      plainSlot s .bs 1 = true ∧ plainSlot s .f1 4 = true ∧ plainSlot s .f1 5 = true ∧
      constSel s.cfg (instrFields (.f1Llsh1 2 0 1 8 false false 0)) = false ∧
      constSel s.cfg (instrFields (.f1Lrsh1 2 0 1 8 false false 0)) = false ∧ (2 : RegNum) ≠ s.cfg.quirkReg ∧
      ready (instrFields (.f1Llsh1 2 0 1 8 false false 0)) s = true ∧
      ready (instrFields (.f1Lrsh1 2 0 1 8 false false 0)) s = true := by
  decide

theorem witness_MagicShiftsChainT_wellFormed : (wit [slot0 .early .f2 8 [.setMagic]]).WellFormed :=
  ⟨by decide, by decide, by decide, by decide, by decide, by decide⟩

/-- Another bus source, and LOADR on the constant path. -/
theorem witness_OnlyLoadrWritesR :
    (plain (instrFields (.bsReadr 1 0 0 0 false true 0)) (wit []) = true ∧
        completes (exec (.bsReadr 1 0 0 0 false true 0) (wit [])) = true) ∧
      (plain (instrFields (.f2Const 1 0 1 0 false true 0)) (wit []) = true ∧
        constSel (wit []).cfg (instrFields (.f2Const 1 0 1 0 false true 0)) = true ∧
        completes (exec (.f2Const 1 0 1 0 false true 0) (wit [])) = true) := by
  decide

theorem witness_LoadmarCallsTheCollaborator :
    readyPlain (.f1Loadmar 1 0 0 0 false true 0) (wit []) = true ∧ (wit []).cfg.f1Const ≠ 1 := by
  decide

theorem witness_TaskRowRequestsTheHighestWakeup :
    readyPlain (.f1Task 1 0 0 0 false true 0) { wit [] with wakeup := 0x8001 } = true ∧ (wit []).cfg.f1Const ≠ 2 := by
  decide

theorem witness_EmptyWakeupMaskIsFatal :
    let s := { wit [] with wakeup := 0 }
    let d := instrFields (.f1Task 1 0 0 0 false true 0)
    s.run = .running ∧ stalled d s = false ∧ readReady s = true ∧ f2Ready d s = true ∧ bsReady d s = true ∧ plain d s = true ∧
      s.cfg.f1Const ≠ 2 ∧ s.wakeup = 0 := by
  decide

/-- An installed F2 operation that clears the last wakeup bit before the word's own arbitration. -/
theorem witness_EmptyWakeupMaskIsFatal_installed :
    let s := wit [slot0 .early .f2 8 [.unwake (.lit 0)]]
    let d := instrFields (.f1Task 1 0 2 8 false false 0)
    s.run = .running ∧ stalled d s = false ∧ s.cfg.f1Const ≠ 2 ∧ plainSlot s .f1 2 = true ∧ s.wakeup ≠ 0 ∧
      (match beforeEarlyF1 d s with
        | .ok c => c.st.wakeup == 0
        | .error _ => false) = true := by
  decide

theorem witness_IdleF1RowsAddNothing :
    ([.f1None 1 0 0 0 false true 0, .f1Block 1 0 0 0 false true 0] : List Instr).all
      (fun i => readyPlain i (wit []) && !constSel (wit []).cfg (instrFields i)) = true ∧
      (wit []).confTask = (wit []).task := by
  decide

theorem witness_F2RowsBranch :
    ([.f2None 1 0 0 0 false true 0, .f2Buseq0 1 0 0 0 false true 0, .f2Shlt0 1 0 0 0 false true 0, .f2Sheq0 1 0 0 0 false true 0,
      .f2Bus 1 0 0 0 false true 0, .f2Alucy 1 0 0 0 false true 0, .f2Loadmd 1 0 0 0 false true 0,
      .f2Const 1 0 0 0 false true 0] : List Instr).all (fun i => readyPlain i (wit [])) = true ∧
      (wit []).confTask = (wit []).task ∧
      ([1, 2, 3, 4, 5, 6] : List (BitVec 4)).all (fun k => k != (wit []).cfg.f2Const) = true := by
  decide

/-- Operations for the BS slots: drive S of bank `b` onto the bus, and write M to it. -/
def bsSlots (b : Word) : List (Slot × Entry) :=
  [slot0 .early .bs 3 [.andBus (.readS (.lit b) .rsel)], slot0 .late .bs 3 [.writeS (.lit b) .rsel .m],
    slot0 .early .bs 4 [.andBus (.readS (.lit b) .rsel)], slot0 .late .bs 4 [.writeS (.lit b) .rsel .m]]

/-- Both slots, with the first and the last bank. -/
theorem witness_BusSourceSlotsRunInstalledOperations :
    [(0 : Word), 7].all (fun b =>
      ([.bsTaskSlot3 31 0 0 0 false false 0, .bsTaskSlot4 31 0 0 0 false false 0] : List Instr).all (fun i =>
        ready (instrFields i) (wit (bsSlots b)) && decide (b.toNat < (wit (bsSlots b)).cfg.sBanks) &&
          !constSel (wit (bsSlots b)).cfg (instrFields i) && plainSlot (wit (bsSlots b)) .f1 0 && plainSlot (wit (bsSlots b)) .f2 0 &&
          decide (lookupSlot (wit (bsSlots b)).cfg.table ⟨.early, 0, .bs, (instrFields i).bs.toNat⟩ =
            some (.op [.andBus (.readS (.lit b) .rsel)])) &&
          decide (lookupSlot (wit (bsSlots b)).cfg.table ⟨.late, 0, .bs, (instrFields i).bs.toNat⟩ =
            some (.op [.writeS (.lit b) .rsel .m])) &&
          decide (readS (wit (bsSlots b)) b.toNat 31 = some 0))) = true := by
  decide

theorem witness_BusSourceSlots_wellFormed : (wit (bsSlots 7)).WellFormed :=
  ⟨by decide, by decide, by decide, by decide, by decide, by decide⟩

/-- All eight F1 slots filled alike: nothing or an operation early, an operation late. -/
def f1Slots (early : List (List Act)) (late : List Act) : List (Slot × Entry) :=
  (early.flatMap (fun a => (List.range 8).map (fun k => slot0 .early .f1 (8 + k) a))) ++
    (List.range 8).map (fun k => slot0 .late .f1 (8 + k) late)

/-- One instruction of each F1 slot, with a plain bus source. -/
def f1SlotRows : List Instr := oneOfEach.filter (fun i => decide (8 ≤ (instrFields i).f1.toNat))

/-- Both requests, in each of the eight slots. -/
theorem witness_F1SlotsRunInstalledOperations :
    f1SlotRows.length = 8 ∧
    [true, false].all (fun isWrite =>
      f1SlotRows.all (fun i =>
        let s := wit (f1Slots [[.andBus (.lit 0x00FF)]] [if isWrite then .requestURamWrite else .requestURamRead])
        ready (instrFields i) s && (instrFields i).f1 != s.cfg.f1Const && ramRelated s.cfg s.task &&
          plainSlot s .bs (instrFields i).bs.toNat && plainSlot s .f2 (instrFields i).f2.toNat &&
          decide (lookupSlot s.cfg.table ⟨.early, s.task, .f1, (instrFields i).f1.toNat⟩ = some (.op [.andBus (.lit 0x00FF)])) &&
          decide (lookupSlot s.cfg.table ⟨.late, s.task, .f1, (instrFields i).f1.toNat⟩ =
            some (.op [if isWrite then .requestURamWrite else .requestURamRead])))) = true := by
  decide

theorem witness_F1Slots_wellFormed : (wit (f1Slots [[.andBus (.lit 0x00FF)]] [.requestURamWrite])).WellFormed :=
  ⟨by decide, by decide, by decide, by decide, by decide, by decide⟩

/-- All eight F2 slots: the register select replaced early, a branch on bus bit 0 late. -/
def f2Slots : List (Slot × Entry) :=
  (List.range 8).map (fun k => slot0 .early .f2 (8 + k) [.setRsel (.lit 31)]) ++
    (List.range 8).map (fun k => slot0 .late .f2 (8 + k) [.orNext (.and .bus (.lit 1))])

/-- Each of the eight slots, with READR, with LOADR and on the constant path; the last register. -/
theorem witness_F2SlotsRunInstalledOperations :
    let s := wit f2Slots
    s.confTask = s.task ∧ (31 : Word).toNat < 32 ∧
      (List.range 8).all (fun k => [((0 : BitVec 3), (0 : BitVec 4)), (1, 0), (3, 7)].all (fun p =>
        let d : Microword := ⟨1, 0, p.1, p.2, BitVec.ofNat 4 (8 + k), false, false, 0⟩
        ready d s && decide (8 ≤ d.f2.toNat) && d.f2 != s.cfg.f2Const && (constSel s.cfg d || plainSlot s .bs d.bs.toNat) &&
          (d.f1 == s.cfg.f1Const || plainSlot s .f1 d.f1.toNat) &&
          decide (lookupSlot s.cfg.table ⟨.early, s.task, .f2, d.f2.toNat⟩ = some (.op [.setRsel (.lit 31)])) &&
          decide (lookupSlot s.cfg.table ⟨.late, s.task, .f2, d.f2.toNat⟩ = some (.op [.orNext (.and .bus (.lit 1))])))) =
        true := by
  decide

/-- The words of that witness are words of instructions: here one slot in its three forms. -/
theorem witness_F2Slots_fields :
    instrFields (.f2TaskSlot0o17 1 0 0 0 false false 0) = ⟨1, 0, 0, 0, 15, false, false, 0⟩ ∧
      instrFields (.f2TaskSlot0o17 1 0 1 0 false false 0) = ⟨1, 0, 1, 0, 15, false, false, 0⟩ ∧
      instrFields (.f2TaskSlot0o17 1 0 3 7 false false 0) = ⟨1, 0, 3, 7, 15, false, false, 0⟩ := by
  decide

theorem witness_F2Slots_wellFormed : (wit f2Slots).WellFormed :=
  ⟨by decide, by decide, by decide, by decide, by decide, by decide⟩

/-- The current task's own selector and the last one. -/
theorem witness_InstalledSetSBankSelectsTheBank :
    [(0 : Task), 15].all (fun k =>
      let s := wit (f1Slots [] [.setSBank (.lit (k.setWidth 16)) (.lit 7)])
      let d := instrFields (.f1TaskSlot0o17 1 0 2 0 false true 0)
      ready d s && decide (8 ≤ d.f1.toNat) && d.f1 != s.cfg.f1Const && decide ((7 : Word).toNat < s.cfg.sBanks) &&
        plainSlot s .bs d.bs.toNat && plainSlot s .f2 d.f2.toNat &&
        decide (lookupSlot s.cfg.table ⟨.early, s.task, .f1, 15⟩ = none) &&
        decide (lookupSlot s.cfg.table ⟨.late, s.task, .f1, 15⟩ = some (.op [.setSBank (.lit (k.setWidth 16)) (.lit 7)]))) = true := by
  decide

/-- The last page. -/
theorem witness_InstalledSetPageMovesTheNextFetch :
    let s := wit (f1Slots [] [.setPage (.lit 3)])
    let d := instrFields (.f1TaskSlot0o10 1 0 2 0 false true 0)
    ready d s = true ∧ 8 ≤ d.f1.toNat ∧ d.f1 ≠ s.cfg.f1Const ∧ s.confTask = s.task ∧ (3 : Word).toNat < 2 ^ s.cfg.pageBits ∧
      plainSlot s .bs d.bs.toNat = true ∧ plainSlot s .f2 d.f2.toNat = true ∧
      lookupSlot s.cfg.table ⟨.early, s.task, .f1, 8⟩ = none ∧
      lookupSlot s.cfg.table ⟨.late, s.task, .f1, 8⟩ = some (.op [.setPage (.lit 3)]) := by
  decide

theorem witness_InstalledSets_wellFormed :
    (wit (f1Slots [] [.setPage (.lit 3)])).WellFormed ∧ (wit (f1Slots [] [.setSBank (.lit 15) (.lit 7)])).WellFormed :=
  ⟨⟨by decide, by decide, by decide, by decide, by decide, by decide⟩,
    ⟨by decide, by decide, by decide, by decide, by decide, by decide⟩⟩

/-- Installed entries in place of a BS, an F2 and an F1 default. -/
def replacements : List (Slot × Entry) :=
  [slot0 .early .bs 0 [.andBus (.lit 0x00F0)], (⟨.late, 0, .bs, 0⟩, .absent), slot0 .late .f2 1 [.orNext (.lit 2)],
    (⟨.early, 0, .f1, 2⟩, .absent), slot0 .late .f1 2 [.ask .readMem, .writeR (.lit 31) (.answer 0)]]

theorem witness_InstalledOperationsReplaceTheDefaults_bs :
    let s := wit replacements
    let d := instrFields (.bsReadr 1 0 0 0 false false 0)
    ready d s = true ∧ constSel s.cfg d = false ∧ plainSlot s .f1 d.f1.toNat = true ∧ plainSlot s .f2 d.f2.toNat = true ∧
      lookupSlot s.cfg.table ⟨.early, s.task, .bs, d.bs.toNat⟩ = some (.op [.andBus (.lit 0x00F0)]) ∧
      lookupSlot s.cfg.table ⟨.late, s.task, .bs, d.bs.toNat⟩ = some .absent := by
  decide

theorem witness_InstalledOperationsReplaceTheDefaults_f2 :
    let s := wit replacements
    let d := instrFields (.f2Buseq0 1 0 2 0 false false 0)
    ready d s = true ∧ d.f2 ≠ s.cfg.f2Const ∧ s.confTask = s.task ∧ plainSlot s .bs d.bs.toNat = true ∧
      plainSlot s .f1 d.f1.toNat = true ∧ lookupSlot s.cfg.table ⟨.early, s.task, .f2, d.f2.toNat⟩ = none ∧
      lookupSlot s.cfg.table ⟨.late, s.task, .f2, d.f2.toNat⟩ = some (.op [.orNext (.lit 2)]) := by
  decide

theorem witness_InstalledOperationsReplaceTheDefaults_f1 :
    let s := wit replacements
    let d := instrFields (.f1Task 1 0 2 0 false false 0)
    ready d s = true ∧ d.f1 ≠ s.cfg.f1Const ∧ (31 : Word).toNat < 32 ∧ plainSlot s .bs d.bs.toNat = true ∧
      plainSlot s .f2 d.f2.toNat = true ∧ lookupSlot s.cfg.table ⟨.early, s.task, .f1, d.f1.toNat⟩ = some .absent ∧
      lookupSlot s.cfg.table ⟨.late, s.task, .f1, d.f1.toNat⟩ =
        some (.op [.ask .readMem, .writeR (.lit 31) (.answer 0)]) := by
  decide

theorem witness_InstalledOperationsReplaceTheDefaults_wellFormed : (wit replacements).WellFormed :=
  ⟨by decide, by decide, by decide, by decide, by decide, by decide⟩

/-- The first and the last word of the first and the last bank; other writes next to the cell. -/
theorem witness_StoreRoundTrip :
    Memory.wf (wit []).store = true ∧ bankInRange (wit []).cfg 0 = some 0 ∧ bankInRange (wit []).cfg 2 = some 2 ∧ 1023 < 1024 ∧
      ∀ p ∈ [((2 : Nat), (1022 : Nat), (7 : UWord)), (1, 1023, 8)], p.2.1 < 1024 ∧ (p.1 ≠ 2 ∨ p.2.1 ≠ 1023) := by
  decide

/-- The first bank out of range, and the wrapping configuration, in which none is. -/
theorem witness_RamBanksOutOfRangeReadTheSentinel :
    bankInRange (wit []).cfg 3 = none ∧ bankInRange (wit []).cfg 2 ≠ none ∧
      bankInRange { (wit []).cfg with cramBankWrap := true } 3 = some 0 := by
  decide

/-- A pending write in range and one out of range. -/
theorem witness_PendingWriteIsStored :
    let s := { wit [] with wrPend := true, wrAddr := 0x23FF }
    let s' := { wit [] with wrPend := true, wrAddr := 0x3005 }
    s.wrPend = true ∧ ready (instrFields (.bsNone 1 0 0 0 false true 0)) s = true ∧ bankInRange s.cfg (ramBank s.wrAddr) = some 2 ∧
      s'.wrPend = true ∧ ready (instrFields (.bsNone 1 0 0 0 false true 0)) s' = true ∧
      bankInRange s'.cfg (ramBank s'.wrAddr) = none := by
  decide

theorem witness_PendingWriteIsStored_wellFormed : ({ wit [] with wrPend := true, wrAddr := 0x23FF } : State).WellFormed ∧
    ({ wit [] with wrPend := true, wrAddr := 0x3005 } : State).WellFormed :=
  ⟨⟨by decide, by decide, by decide, by decide, by decide, by decide⟩,
    ⟨by decide, by decide, by decide, by decide, by decide, by decide⟩⟩

theorem witness_StoreUnchangedWithoutAPendingWrite :
    (wit []).wrPend = false ∧ completes (exec (.bsNone 1 0 0 0 false true 0) (wit [])) = true := by
  decide

theorem witness_RomIsNeverWritten :
    let s := loadWord { wit [] with wrPend := true, wrAddr := 0x0805 } 0 0x00200001
    Memory.wf s.store = true ∧ completes (step s) = true := by
  decide

/-- The word stored is the very one that is executed: page 1 is RAM bank 0. -/
theorem witness_NextFetchSeesTheWrittenWord :
    let s := loadWord { wit [] with page := 1, wrPend := true, wrAddr := 0x0000 } 1024 0x00200000
    s.wrPend = true ∧ bankInRange s.cfg (ramBank s.wrAddr) = some 0 ∧ fetch s = some 0x00200000 ∧
      ready (wordFields 0x00200000) s = true := by
  decide

theorem witness_NextFetch_wellFormed :
    (loadWord { wit [] with page := 1, wrPend := true, wrAddr := 0x0000 } 1024 0x00200000).WellFormed :=
  ⟨by decide, by decide, by decide, by decide, by decide, by decide⟩

/-- A ROM select, and an unwritten word of the last bank. -/
theorem witness_PendingReadStops :
    let s := { wit [] with rdPend := true, rdAddr := 0x0800 }
    let s' := { wit [] with rdPend := true, rdAddr := 0x23FF }
    let d := instrFields (.bsNone 1 0 0 0 false true 0)
    (s.run = .running ∧ stalled d s = false ∧ s.rdPend = true ∧ ramRomsel s.rdAddr = true) ∧
      s'.run = .running ∧ stalled d s' = false ∧ s'.rdPend = true ∧ ramRomsel s'.rdAddr = false ∧
      bankInRange s'.cfg (ramBank s'.rdAddr) = some 2 ∧
      s'.store.read ((s'.cfg.romPages + 2) * 1024 + ramWord s'.rdAddr) = none := by
  decide

/-- A fault, and each of the two refusals. -/
theorem witness_InstructionsStopOnlyAsTheRulesSay :
    faultOf (exec (.bsNone 1 0 0 0 false true 0) { wit [] with rdPend := true, rdAddr := 0x1005 }) = some (.unwrittenRam 1 5) ∧
      refusalOf (exec (.bsNone 1 0 0 0 false true 0) { wit [] with rdPend := true, rdAddr := 0x0805 }) =
        some .romReadThroughRamPort ∧
      refusalOf (exec (.f1TaskSlot0o10 1 0 2 0 false true 0) (wit [slot0 .late .f1 8 [.outside]])) =
        some .unmodelledOperation := by
  decide

/-- Each of the two kinds. -/
theorem witness_FatalErrorsAbandonTheCycle :
    (wit []).run = .running ∧
      look (exec (.f2TaskSlot0o10 1 0 2 0 false true 0) (wit [])) (fun u => u.run) =
        some (.halted ⟨.unsetTaskSpecific, 0, 0, .f2, 8⟩) ∧
      look (exec (.f1Task 1 0 2 0 false true 0) { wit [] with wakeup := 0 }) (fun u => u.run) =
        some (.halted ⟨.emptyWakeupMask, 0, 0, .f1, 2⟩) := by
  decide

/-- Each of the three fields; the other fields of each word are ready. -/
theorem witness_UnsetSlotsAreFatal :
    let s := wit []
    (s.run = .running ∧ readReady s = true) ∧
      (stalled (instrFields (.f2TaskSlot0o10 1 0 2 0 false true 0)) s = false ∧ taskSpecific .f2 8 = true ∧
        (8 : BitVec 4) ≠ s.cfg.f2Const ∧ plainSlot s .f2 8 = true) ∧
      (stalled (instrFields (.bsTaskSlot4 1 0 0 0 false true 0)) s = false ∧
        f2Ready (instrFields (.bsTaskSlot4 1 0 0 0 false true 0)) s = true ∧ taskSpecific .bs 4 = true ∧
        constSel s.cfg (instrFields (.bsTaskSlot4 1 0 0 0 false true 0)) = false ∧ plainSlot s .bs 4 = true) ∧
      (stalled (instrFields (.f1TaskSlot0o17 1 0 2 0 false true 0)) s = false ∧
        f2Ready (instrFields (.f1TaskSlot0o17 1 0 2 0 false true 0)) s = true ∧
        bsReady (instrFields (.f1TaskSlot0o17 1 0 2 0 false true 0)) s = true ∧ taskSpecific .f1 15 = true ∧
        (15 : BitVec 4) ≠ s.cfg.f1Const ∧ plainSlot s .f1 15 = true) := by
  decide

/-- Without a switch and with one. -/
theorem witness_ExecFrame :
    completes (exec (.bsNone 1 0 0 0 false false 0) (wit [])) = true ∧ (wit []).confTask = (wit []).task ∧
      completes (exec (.bsNone 1 0 0 0 false false 0) { wit [] with confTask := 15 }) = true ∧ (4 : Task) ≠ (wit []).task := by
  decide

theorem witness_StepKeepsWellFormed :
    completes (step (loadWord (wit []) 0 0x00200001)) = true ∧ Memory.wf (loadWord (wit []) 0 0x00200001).store = true := by
  decide

theorem witness_StepKeepsWellFormed_wellFormed : (loadWord (wit []) 0 0x00200001).WellFormed :=
  ⟨by decide, by decide, by decide, by decide, by decide, by decide⟩

theorem witness_ResetIsWellFormed : defaultConfig.wf = true ∧ { defaultConfig with romPages := 2, ramPages := 2 }.wf = true := by
  decide

/-- A word with default entries, and one with an installed operation. -/
theorem witness_SwitchSavesAndRestores :
    let s := { wit filled with confTask := 15 }
    (15 : Task) ≠ s.task ∧ s.confTask ≠ s.task ∧ ready (instrFields (.bsNone 1 0 0 0 false false 0)) s = true ∧
      ready (instrFields (.f1TaskSlot0o10 1 0 2 0 false false 0)) s = true := by
  decide

theorem witness_SwitchSavesAndRestores_wellFormed : ({ wit filled with confTask := 15 } : State).WellFormed :=
  ⟨by decide, by decide, by decide, by decide, by decide, by decide⟩

theorem witness_TaskSwitchTakesOneMoreWord :
    let s := { wit [] with wakeup := 0x8001 }
    s.confTask = s.task ∧ readyPlain (.f1Task 1 0 0 0 false false 0) s = true ∧ s.cfg.f1Const ≠ 2 ∧
      highestWakeup s.wakeup = some 15 ∧
      look (exec (.f1Task 1 0 0 0 false false 0) s) (fun u => ready (instrFields (.bsNone 1 0 0 0 false false 0)) u) = some true := by
  decide

theorem witness_TaskSwitchTakesOneMoreWord_wellFormed : ({ wit [] with wakeup := 0x8001 } : State).WellFormed :=
  ⟨by decide, by decide, by decide, by decide, by decide, by decide⟩

/-- Both ends of the window, and the addresses just outside it. -/
theorem witness_BankRegisterWindow :
    bankRegOffset (wit []).cfg 0o177740 = some 0 ∧ bankRegOffset (wit []).cfg 0o177757 = some 15 ∧
      bankRegOffset (wit []).cfg 0o177737 = none ∧ bankRegOffset (wit []).cfg 0o177760 = none ∧
      (wit []).cfg.bankregBase.toNat + 15 < 65536 := by
  decide

theorem witness_ColdResetState : { defaultConfig with sBanks := 0 }.wf = false ∧ defaultConfig.wf = true := by
  decide

/-- Images that list the last ROM word, the first RAM word and the last RAM word. -/
theorem witness_ColdResetLoadsTheImages :
    let c := { defaultConfig with romImage := [(1023, 5), (0, 6)], ramImage := [(0, 7), (3071, 8)] }
    (c.romImage.map Prod.fst).Nodup ∧ (c.ramImage.map Prod.fst).Nodup ∧ 1023 < c.romPages * 1024 ∧ 3071 < c.ramPages * 1024 ∧
      (c.romPages + c.ramPages) * 1024 ≤ 4096 ∧ (State.cold c).store = [(0, 6), (1023, 5), (1024, 7), (4095, 8)] := by
  decide

/-- The budget used up, and the leave flag. -/
theorem witness_LoopExitSavesTheTask :
    (wit []).run = .running ∧
      ({ wit [] with inputs := [{ quietInputs with leave := true }] } : State).input.leave = true ∧
      completes (hostRun 0 (wit [])) = true ∧
      completes (hostRun 5 { wit [] with inputs := [{ quietInputs with leave := true }] }) = true := by
  decide

/-- The budget used up, a halt, and the leave flag. -/
theorem witness_BudgetCountsIterations :
    completes (hostRun 1 (loadWord (wit []) 0 0x00200001)) = true ∧
      look (hostRun 1 (loadWord (wit []) 0 0x00220001 |> fun s => { s with wakeup := 0 })) (fun u => u.run) =
        some (.halted ⟨.emptyWakeupMask, 0, 0, .f1, 2⟩) ∧
      look (hostRun 3 { wit [] with inputs := [{ quietInputs with leave := true }] }) (fun u => u.ticks) = some 0 := by
  decide

end Sys2Proof.Tests
end

section
/-! PROOFS. The microcode store (R50, R55, R63, R68): what a write makes a fetch and a half read give, and that the writes to
other cells change neither. -/

namespace Sys2Proof.Machine

/-- Distinct cells of the RAM pages have distinct fetch addresses (R50). -/
theorem ramAddr_inj {c : Config} {b b' w w' : Nat} (hw : w < 1024) (hw' : w' < 1024) :
    ramAddr c b w = ramAddr c b' w' ↔ b = b' ∧ w = w' := by
  unfold ramAddr pageSize
  omega

/-- A fetch inverts the stored form: it gives the word whose stored form the store holds. -/
theorem uFetch_eq_some {s : State} {a : Nat} {v : UWord} :
    uFetch s a = some v ↔ s.store.read a = some (v ^^^ s.cfg.invMask) := by
  unfold uFetch
  rw [Option.map_eq_some_iff]
  constructor
  · rintro ⟨w, hw, rfl⟩
    simp [hw]
  · intro h
    exact ⟨_, h, by simp⟩

theorem uRamWrite_wf {s : State} (hs : Memory.wf s.store = true) (b word : Nat) (v : UWord) :
    Memory.wf (uRamWrite s b word v).store = true :=
  Memory.wf_write _ _ _ hs

theorem uFetch_uRamWrite_same {s : State} (hs : Memory.wf s.store = true) (b word : Nat) (v : UWord) :
    uFetch (uRamWrite s b word v) (ramAddr s.cfg b word) = some v := by
  rw [uFetch_eq_some, uRamWrite_store, uRamWrite_cfg, Memory.read_write_same _ hs]

theorem uFetch_uRamWrite_other {s : State} (hs : Memory.wf s.store = true) {b word a : Nat} (v : UWord)
    (ha : a ≠ ramAddr s.cfg b word) : uFetch (uRamWrite s b word v) a = uFetch s a := by
  unfold uFetch
  rw [uRamWrite_store, uRamWrite_cfg, Memory.read_write_other _ hs _ ha]

/-- A half read of a cell in range answers that half of the word a fetch gives (R63). -/
theorem uRamRead_of_uFetch {s : State} {bank b word : Nat} {v : UWord} (hb : bankInRange s.cfg bank = some b)
    (hv : uFetch s (ramAddr s.cfg b word) = some v) (half : Bool) :
    uRamRead s bank word half = .ok (if half then v.extractLsb' 16 16 else v.extractLsb' 0 16) := by
  unfold uRamRead
  simp only [hb, uFetch_eq_some.mp hv, BitVec.xor_assoc, BitVec.xor_self, BitVec.xor_zero]

/-- The two halves of a word, put together. -/
theorem halves_append (v : UWord) : v.extractLsb' 16 16 ++ v.extractLsb' 0 16 = v :=
  (BitVec.extractLsb'_append_extractLsb'_eq_extractLsb' rfl).trans BitVec.extractLsb'_eq_self

/-- Any number of writes to RAM cells, in order: (bank, word, value). -/
def uRamWrites (s : State) (cells : List (Nat × Nat × UWord)) : State :=
  cells.foldl (fun s p => uRamWrite s p.1 p.2.1 p.2.2) s

@[simp] theorem uRamWrites_cons (s : State) (p : Nat × Nat × UWord) (rest : List (Nat × Nat × UWord)) :
    uRamWrites s (p :: rest) = uRamWrites (uRamWrite s p.1 p.2.1 p.2.2) rest := rfl

@[simp] theorem uRamWrites_cfg (s : State) (cells : List (Nat × Nat × UWord)) : (uRamWrites s cells).cfg = s.cfg := by
  induction cells generalizing s with
  | nil => rfl
  | cons p rest ih => rw [uRamWrites_cons, ih, uRamWrite_cfg]

/-- A fetch sees none of the writes to other addresses. -/
theorem uFetch_uRamWrites_other {s : State} (hs : Memory.wf s.store = true) {a : Nat} {cells : List (Nat × Nat × UWord)}
    (h : ∀ p ∈ cells, a ≠ ramAddr s.cfg p.1 p.2.1) : uFetch (uRamWrites s cells) a = uFetch s a := by
  induction cells generalizing s with
  | nil => rfl
  | cons p rest ih =>
    obtain ⟨hp, hrest⟩ := List.forall_mem_cons.mp h
    rw [uRamWrites_cons, ih (uRamWrite_wf hs _ _ _) hrest, uFetch_uRamWrite_other hs _ hp]

/-- Settles O39: the written word survives the writes to other cells, since distinct cells have distinct addresses, and both
the fetch and the half reads go by that word. -/
theorem storeRoundTrip : Obligations.StoreRoundTrip := by
  intro s bank b word v others hwf hb hword hothers
  have hother : ∀ p ∈ others, ramAddr s.cfg b word ≠ ramAddr s.cfg p.1 p.2.1 := by
    intro p hp heq
    obtain ⟨hlt, hne⟩ := hothers p hp
    obtain ⟨rfl, rfl⟩ := (ramAddr_inj hword hlt).mp heq
    simp at hne
  have hfetch : uFetch (uRamWrites (uRamWrite s b word v) others) (ramAddr s.cfg b word) = some v := by
    rw [uFetch_uRamWrites_other (uRamWrite_wf hwf b word v) hother, uFetch_uRamWrite_same hwf]
  have hcfg : (uRamWrites (uRamWrite s b word v) others).cfg = s.cfg := by simp
  have hread := uRamRead_of_uFetch (hcfg ▸ hb) (hcfg ▸ hfetch)
  exact ⟨_, _, _, rfl, hread true, hread false, halves_append v, hfetch⟩

end Sys2Proof.Machine
end

section
/-! PROOFS. The bank registers (R70, R71) and the window of 16 addresses that reaches them (R72). -/

namespace Sys2Proof.Machine

/-- The low four bits of a word, widened again. -/
theorem setWidth_low4 (v : Word) : (v.extractLsb' 0 4).setWidth 16 = v &&& 0xF := by
  apply BitVec.eq_of_toNat_eq
  have hmask : (v &&& 0xF).toNat = v.toNat % 2 ^ 4 := Nat.and_two_pow_sub_one_eq_mod v.toNat 4
  rw [hmask, BitVec.toNat_setWidth, BitVec.extractLsb'_toNat, Nat.shiftRight_zero]
  omega

theorem bankRegRead_bankRegWrite_same (s : State) (off : BitVec 4) (v : Word) :
    bankRegRead (bankRegWrite s off v) off = (v &&& 0xF) ||| 0xFFF0 := by
  unfold bankRegRead
  rw [bankRegWrite_bankreg, at16_set16_same, setWidth_low4]

theorem bankRegRead_bankRegWrite_other (s : State) {off k : BitVec 4} (v : Word) (h : k ≠ off) :
    bankRegRead (bankRegWrite s off v) k = bankRegRead s k := by
  unfold bankRegRead
  rw [bankRegWrite_bankreg, at16_set16_other _ _ h]

theorem applyEvent_busWrite_inside {s : State} {addr : Word} {off : BitVec 4} (h : bankRegOffset s.cfg addr = some off)
    (v : Word) : applyEvent s (.busWrite addr v) = bankRegWrite s off v := by
  simp only [applyEvent, h]

theorem applyEvent_busRead_inside {s : State} {addr : Word} {off : BitVec 4} (h : bankRegOffset s.cfg addr = some off) :
    applyEvent s (.busRead addr) = logCall s (.busAnswer addr (bankRegRead s off)) := by
  simp only [applyEvent, h]

theorem applyEvent_busWrite_outside {s : State} {addr : Word} (h : bankRegOffset s.cfg addr = none) (v : Word) :
    applyEvent s (.busWrite addr v) = s := by
  simp only [applyEvent, h]

theorem applyEvent_busRead_outside {s : State} {addr : Word} (h : bankRegOffset s.cfg addr = none) :
    applyEvent s (.busRead addr) = s := by
  simp only [applyEvent, h]

/-- Where the window does not go round at 2^16, an address reaches the entry it is above the base by (R72). -/
theorem bankRegOffset_eq_some {c : Config} (hbase : c.bankregBase.toNat + 15 < 65536) (addr : Word) (off : BitVec 4) :
    bankRegOffset c addr = some off ↔ addr.toNat = c.bankregBase.toNat + off.toNat := by
  unfold bankRegOffset
  split
  · rw [Option.some_inj]
    bv_omega
  · simp only [reduceCtorEq, false_iff]
    bv_omega

/-- Settles O54: the four clauses are the read after a write, the two accesses inside the window, the two outside it, and which
addresses the window holds. -/
theorem bankRegisterWindow : Obligations.BankRegisterWindow := by
  intro s addr v
  refine ⟨fun off => ⟨rfl, rfl⟩, fun off hoff => ?_, fun hoff => ?_, fun hbase off => bankRegOffset_eq_some hbase addr off⟩
  · rw [applyEvent_busWrite_inside hoff]
    have hread := bankRegRead_bankRegWrite_same s off v
    refine ⟨rfl, hread, fun k hk => bankRegRead_bankRegWrite_other s v hk, ?_⟩
    rw [applyEvent_busRead_inside (s := bankRegWrite s off v) hoff, hread]
  · exact ⟨applyEvent_busWrite_outside hoff v, applyEvent_busRead_outside hoff⟩

end Sys2Proof.Machine
end

section
/-! PROOFS. The fields of a decoded word are its bits: each field as division of the value of the word (R90, R100). -/

namespace Sys2Proof

/-- A slice of a word by division: the bits below it are divided away, the bits above it are left out. -/
theorem extractLsb'_toNat_eq_div_mod {n : Nat} (w : BitVec n) (start len : Nat) :
    (w.extractLsb' start len).toNat = w.toNat / 2 ^ start % 2 ^ len := by
  rw [BitVec.extractLsb'_toNat, Nat.shiftRight_eq_div_pow]

/-- RSEL is the top field (R91), so the division alone gives it: no bit of the word lies above it. -/
theorem wordFields_rsel_toNat (w : UWord) : (wordFields w).rsel.toNat = w.toNat / 2 ^ 27 := by
  have htop : w.toNat / 2 ^ 27 < 2 ^ 5 := Nat.div_lt_of_lt_mul w.isLt
  exact (extractLsb'_toNat_eq_div_mod w 27 5).trans (Nat.mod_eq_of_lt htop)

/-- NEXT is the bottom field (R98), so the remainder alone gives it. -/
theorem wordFields_next_toNat (w : UWord) : (wordFields w).next.toNat = w.toNat % 2 ^ 10 := by
  have hslice := extractLsb'_toNat_eq_div_mod w 0 10
  rwa [Nat.pow_zero, Nat.div_one] at hslice

/-- Settles O3: decoding keeps the fields of the word (`instrFields_decode`), and each of those is a slice or a bit of it. -/
theorem decodedFieldsAreTheWordsBits : Obligations.DecodedFieldsAreTheWordsBits := by
  intro w
  rw [instrFields_decode]
  refine ⟨wordFields_rsel_toNat w, ?aluf, ?bs, ?f1, ?f2, ?loadt, ?loadl, wordFields_next_toNat w⟩
  case aluf => exact extractLsb'_toNat_eq_div_mod w 23 4
  case bs => exact extractLsb'_toNat_eq_div_mod w 20 3
  case f1 => exact extractLsb'_toNat_eq_div_mod w 16 4
  case f2 => exact extractLsb'_toNat_eq_div_mod w 12 4
  case loadt => exact Nat.toNat_testBit w.toNat 11
  case loadl => exact Nat.toNat_testBit w.toNat 10

end Sys2Proof
end

section
/-! PROOFS. The arithmetic functions of the ALU (R127 to R133): the exact sum of R138 in 16-bit arithmetic, its bit 16 as a
comparison, and the carry convention of R139. -/

namespace Sys2Proof.Machine

/-- Bit 16 of a sum of at most 17 bits says whether the sum has left the 16-bit range (R138). -/
theorem testBit_sixteen_eq_decide {n : Nat} (hn : n < 131072) : n.testBit 16 = decide (65536 ≤ n) := by
  rw [Nat.testBit_eq_decide_div_mod_eq, decide_eq_decide]
  omega

/-- The outputs of an adding function whose exact sum is `n` and whose 16-bit sum is `v`. -/
theorem sumOut_eq {n : Nat} {v : Word} (src : TSource) (hn : n < 131072) (hv : BitVec.ofNat 16 n = v) :
    sumOut n src = ⟨v, decide (65536 ≤ n), src, true⟩ := by
  rw [sumOut, testBit_sixteen_eq_decide hn, hv]

/-- The outputs of a subtracting function: its exact sum is `65536 + x - y`, so bit 16 of it is not-borrow. -/
theorem diffOut_eq {n x y : Nat} {v : Word} (k : SubCarry) (src : TSource) (hx : x < 65536) (hsum : n + y = 65536 + x)
    (hv : BitVec.ofNat 16 n = v) : diffOut k n src = ⟨v, subCarry k (decide (y ≤ x)), src, true⟩ := by
  have hcarry : 65536 ≤ n ↔ y ≤ x := by omega
  rw [diffOut, testBit_sixteen_eq_decide (by omega), decide_eq_decide.mpr hcarry, sumOut, hv]

/-- The carry convention (R139): not-borrow as it is, or the borrow that is its negation. -/
theorem subCarry_decide (k : SubCarry) {notBorrow borrow : Prop} [Decidable notBorrow] [Decidable borrow]
    (h : ¬ notBorrow ↔ borrow) :
    subCarry k (decide notBorrow) = if k = .noBorrow then decide notBorrow else decide borrow := by
  cases k with
  | noBorrow => rfl
  | borrow => simp [subCarry, ← h]

theorem bitWord_toNat (b : Bool) : (bitWord b).toNat = b.toNat := by
  cases b <;> rfl

/-! ## The adding functions -/

theorem aluFnBusPlus1_eq (bus : Word) :
    aluFnBusPlus1 bus = ⟨bus + 1, decide (65536 ≤ bus.toNat + 1), .alu, true⟩ :=
  sumOut_eq .alu (by omega) (by bv_omega)

theorem aluFnBusPlusT_eq (bus t : Word) :
    aluFnBusPlusT bus t = ⟨bus + t, decide (65536 ≤ bus.toNat + t.toNat), .bus, true⟩ :=
  sumOut_eq .bus (by omega) (by bv_omega)

theorem aluFnBusPlusTPlus1_eq (bus t : Word) :
    aluFnBusPlusTPlus1 bus t = ⟨bus + t + 1, decide (65536 ≤ bus.toNat + t.toNat + 1), .alu, true⟩ :=
  sumOut_eq .alu (by omega) (by bv_omega)

/-- The skip bit is added as a word of value 0 or 1 (R133). -/
theorem aluFnBusPlusSkip_eq (bus : Word) (skip : Bool) :
    aluFnBusPlusSkip bus skip = ⟨bus + bitWord skip, decide (65536 ≤ bus.toNat + skip.toNat), .alu, true⟩ := by
  rw [aluFnBusPlusSkip, ← bitWord_toNat]
  exact sumOut_eq .alu (by omega) (by bv_omega)

/-! ## The subtracting functions -/

theorem aluFnBusMinus1_eq (k : SubCarry) (bus : Word) :
    aluFnBusMinus1 k bus = ⟨bus - 1, subCarry k (decide (1 ≤ bus.toNat)), .alu, true⟩ :=
  diffOut_eq k .alu bus.isLt (by omega) (by bv_omega)

theorem aluFnBusMinusT_eq (k : SubCarry) (bus t : Word) :
    aluFnBusMinusT k bus t = ⟨bus - t, subCarry k (decide (t.toNat ≤ bus.toNat)), .bus, true⟩ :=
  diffOut_eq k .bus bus.isLt (by bv_omega) (by bv_omega)

/-- Without the 1 of R130 the exact sum takes `t + 1` from the bus, and `t + 1 ≤ bus` is `t < bus`. -/
theorem aluFnBusMinusTMinus1_eq (k : SubCarry) (bus t : Word) :
    aluFnBusMinusTMinus1 k bus t = ⟨bus - t - 1, subCarry k (decide (t.toNat < bus.toNat)), .bus, true⟩ :=
  diffOut_eq (y := t.toNat + 1) k .bus bus.isLt (by bv_omega) (by bv_omega)

/-- Settles O14: each function by its own equation; the three subtracting ones with the carry convention written out. -/
theorem aluArithmeticTable : Obligations.AluArithmeticTable := by
  intro k bus t skip
  refine ⟨aluFnBusPlus1_eq bus, ?minus1, aluFnBusPlusT_eq bus t, ?minusT, ?minusTMinus1, aluFnBusPlusTPlus1_eq bus t,
    aluFnBusPlusSkip_eq bus skip⟩
  case minus1 =>
    rw [← subCarry_decide k Nat.not_le]
    exact aluFnBusMinus1_eq k bus
  case minusT =>
    rw [← subCarry_decide k Nat.not_le]
    exact aluFnBusMinusT_eq k bus t
  case minusTMinus1 =>
    rw [← subCarry_decide k Nat.not_lt]
    exact aluFnBusMinusTMinus1_eq k bus t

end Sys2Proof.Machine
end

section
/-! PROOFS. The register commit (R164 to R167) of a cycle that runs to its end: what the phases before the commit leave of the
latches, and what the commit leaves in every S register. -/

namespace Sys2Proof.Machine

/-! ## Before the commit -/

/-- What the commit reads or leaves stands after the early phase, the write-back and the late phase as it did at the start of
the cycle: no port writes it (R245). -/
theorem phases_keep_latches {d : Microword} {s : State} {c c' : Cyc} (he : earlyPhase d s = .ok c)
    (hl : latePhase (aluPhase c) = .ok c') :
    c'.st.cfg = s.cfg ∧ c'.st.task = s.task ∧ c'.st.l = s.l ∧ c'.st.laluc0 = s.laluc0 ∧ c'.st.t = s.t ∧ c'.st.m = s.m := by
  have early := earlyPhase_frame he
  have late := latePhase_frame hl
  exact ⟨late.cfg.trans ((writeBack_cfg _ _).trans early.cfg), late.task.trans ((writeBack_task _ _).trans early.task),
    late.l.trans ((writeBack_l _ _).trans early.l), late.laluc0.trans ((writeBack_laluc0 _ _).trans early.laluc0),
    late.t.trans ((writeBack_t _ _).trans early.t), late.m.trans ((writeBack_m _ _).trans early.m)⟩

/-- Both phases keep a well-formed state's S-bank selectors inside its S files (R34), so the bank that the commit writes
exists. -/
theorem phases_keep_sbank_lt {d : Microword} {s : State} {c c' : Cyc} (hs : s.WellFormed) (he : earlyPhase d s = .ok c)
    (hl : latePhase (aluPhase c) = .ok c') (k : Task) : at16 c'.st.sbank k < c'.st.sregs.length := by
  have early := earlyPhase_frame he
  have late := latePhase_frame hl
  have cfg_mid : (aluPhase c).st.cfg = s.cfg := (writeBack_cfg _ _).trans early.cfg
  have sbank_mid : ∀ j, at16 (aluPhase c).st.sbank j < (aluPhase c).st.cfg.sBanks := by
    intro j
    rw [cfg_mid, aluPhase, writeBack_sbank]
    exact early.sbank hs.sbank j
  have length_mid : (aluPhase c).st.sregs.length = s.sregs.length := by
    rw [aluPhase, writeBack_sregs]
    exact early.sregs
  calc at16 c'.st.sbank k < (aluPhase c).st.cfg.sBanks := late.sbank sbank_mid k
    _ = s.cfg.sBanks := by rw [cfg_mid]
    _ = c'.st.sregs.length := by rw [late.sregs, length_mid, hs.sregs]

/-! ## The commit -/

/-- The S read port sees the S files only. -/
theorem readS_congr {s u : State} (h : u.sregs = s.sregs) (b : Nat) (k : RegNum) : readS u b k = readS s b k := by
  rw [readS, readS, h]

/-- The T load is no write of S. -/
theorem commit_sregs (d : Microword) (o : AluOut) (bus : Word) (s : State) :
    (commit d o bus s).sregs = if d.loadl then (commitL o s).sregs else s.sregs := by
  unfold commit
  cases d.loadt <;> cases d.loadl <;> rfl

/-- The L load of a ram-related task writes S register 0 of the task's own bank (R166), that of another task no S register. -/
theorem readS_commitL {s : State} (o : AluOut) (h : at16 s.sbank s.task < s.sregs.length) (b : Nat) (k : RegNum) :
    readS (commitL o s) b k =
      if ramRelated s.cfg s.task ∧ b = at16 s.sbank s.task ∧ k = 0 then some o.alu else readS s b k := by
  cases hr : ramRelated s.cfg s.task with
  | false => simp [commitL, hr, readS]
  | true =>
    simp only [commitL, hr, if_true, true_and]
    refine readS_writeS ?_ b k
    exact h

/-- Every S register after the commit: the one that the L load of a ram-related task writes, and the others unchanged. -/
theorem readS_commit {s : State} (d : Microword) (o : AluOut) (bus : Word) (h : at16 s.sbank s.task < s.sregs.length)
    (b : Nat) (k : RegNum) :
    readS (commit d o bus s) b k =
      if d.loadl ∧ ramRelated s.cfg s.task ∧ b = at16 s.sbank s.task ∧ k = 0 then some o.alu else readS s b k := by
  have sregs_eq := commit_sregs d o bus s
  cases hl : d.loadl with
  | false =>
    rw [hl] at sregs_eq
    simpa using readS_congr sregs_eq b k
  | true =>
    rw [hl] at sregs_eq
    simpa using (readS_congr sregs_eq b k).trans (readS_commitL o h b k)

/-- LALUC0 takes the carry of an arithmetic function, else 0 (R165). -/
theorem latchedCarry_eq (o : AluOut) : latchedCarry o = if o.arith then o.aluc0 else false := by
  unfold latchedCarry
  cases o.arith <;> rfl

/-- T takes the ALU result or the bus, as the function's T source says (R167). -/
theorem tSource_eq (o : AluOut) (bus : Word) : tSource o bus = if o.tsrc = .alu then o.alu else bus := by
  unfold tSource
  cases o.tsrc <;> rfl

/-- Settles O19: the next state is the committed one (step 10 touches no latch and no S register), and the commit's own
equations are about latches that the two phases have left as they were. -/
theorem completedCyclesCommit : Obligations.CompletedCyclesCommit := by
  intro i s c c' hwf hrun hstall he hl
  obtain ⟨hcfg, htask, hl0, hlaluc0, ht, hm⟩ := phases_keep_latches he hl
  refine ⟨_, (exec_eq_microcycle i s).trans (microcycle_of_phases hrun hstall he hl), ?l, ?laluc0, ?t, ?m, ?sregs⟩
  case l => rw [nextAddress_l, commit_l, hl0]
  case laluc0 => rw [nextAddress_laluc0, commit_laluc0, latchedCarry_eq, hlaluc0]
  case t => rw [nextAddress_t, commit_t, tSource_eq, ht]
  case m => simp only [nextAddress_m, commit_m, hcfg, htask, hm, Bool.and_eq_true]
  case sregs =>
    intro b k
    rw [readS_congr (nextAddress_sregs _ _ _), readS_commit _ _ _ (phases_keep_sbank_lt hwf he hl _), hcfg, htask]

end Sys2Proof.Machine
end

section
/-! PROOFS. The stall (R248) over any number of iterations (R258): a stalled iteration changes only what the host's loop counts,
so the same word is fetched again. -/

namespace Sys2Proof.Machine

/-- `k` iterations passed over the core: their count is added and their inputs are used up, every piece of core state stands. -/
def passed (k : Nat) (s : State) : State := { s with ticks := s.ticks + k, inputs := s.inputs.drop k }

@[simp] theorem passed_zero (s : State) : passed 0 s = s := rfl

/-- Iterations that pass over the core add up. -/
theorem passed_passed (j k : Nat) (s : State) : passed k (passed j s) = passed (j + k) s := by
  simp [passed, Nat.add_assoc]

/-- The fetch reads core state only (R247). -/
@[simp] theorem fetch_passed (k : Nat) (s : State) : fetch (passed k s) = fetch s := rfl

@[simp] theorem passed_run (k : Nat) (s : State) : (passed k s).run = s.run := rfl

/-- Without events the end of an iteration is one iteration passed. -/
theorem endIteration_of_no_events {s : State} (h : s.input.events = []) : endIteration s = passed 1 s := by
  rw [endIteration, h, applyEvents, passed, List.drop_one]

/-- A stalled word changes nothing, on a running core or a halted one (R248). -/
theorem microcycle_of_stalled {d : Microword} {s : State} (h : stalled d s = true) : microcycle d s = .next s := by
  obtain ⟨-, hnext⟩ | ⟨-, hnot, -⟩ := microcycle_cases d s
  · exact hnext
  · simp [h] at hnot

/-- A step whose fetched word stalls is the end of the iteration alone. -/
theorem step_of_stalled {s : State} {w : UWord} (hrun : s.run = .running) (hfetch : fetch s = some w)
    (hstall : stalled (wordFields w) s = true) : step s = .next (endIteration s) := by
  have hexec : exec (decode w) s = .next s := by
    rw [exec_eq_microcycle, instrFields_decode, microcycle_of_stalled hstall]
  simp only [step, hrun, hfetch, hexec, finish]

/-- A run of stalled iterations without events passes over the core: after the first one, the later ones stall the same word. -/
theorem core_run_of_stalled {n : Nat} {s : State} {w : UWord} (hrun : s.run = .running) (hfetch : fetch s = some w)
    (h : ∀ k < n, stalled (wordFields w) (passed k s) = true ∧ (passed k s).input.events = []) :
    core.run n s = .next (passed n s) := by
  induction n generalizing s with
  | zero => rfl
  | succ n ih =>
    obtain ⟨hstall, hevents⟩ := h 0 n.succ_pos
    rw [passed_zero] at hstall hevents
    have hstep : step s = .next (passed 1 s) := by
      rw [step_of_stalled hrun hfetch hstall, endIteration_of_no_events hevents]
    have hlater : ∀ k < n, stalled (wordFields w) (passed k (passed 1 s)) = true ∧
        (passed k (passed 1 s)).input.events = [] := by
      intro k hk
      rw [passed_passed]
      exact h (1 + k) (by omega)
    have hrest : core.run n (passed 1 s) = .next (passed n (passed 1 s)) :=
      ih ((passed_run 1 s).trans hrun) ((fetch_passed 1 s).trans hfetch) hlater
    rw [core_run_succ hstep, hrest, passed_passed, Nat.add_comm]

/-- Settles O10: the stalled iterations pass over the core, and what a fetch reads is core state. -/
theorem stallsAreIdempotent : Obligations.StallsAreIdempotent := by
  intro n s w hrun hfetch h
  exact ⟨core_run_of_stalled hrun hfetch h, (fetch_passed n s).trans hfetch⟩

end Sys2Proof.Machine
end

section
/-! PROOFS. The naming of words (notes/assumptions 3): the row that names a word, the word seen from a row, and that decoding and
encoding are inverse (R100). -/

namespace Sys2Proof

/-- The row of an instruction: its own field with the value that it fixes. -/
def ownRow : Instr → Row
  | .aluBus .. => .alu 0
  | .aluT .. => .alu 1
  | .aluBusOrT .. => .alu 2
  | .aluBusAndT .. => .alu 3
  | .aluBusXorT .. => .alu 4
  | .aluBusPlus1 .. => .alu 5
  | .aluBusMinus1 .. => .alu 6
  | .aluBusPlusT .. => .alu 7
  | .aluBusMinusT .. => .alu 8
  | .aluBusMinusTMinus1 .. => .alu 9
  | .aluBusPlusTPlus1 .. => .alu 10
  | .aluBusPlusSkip .. => .alu 11
  | .aluBusDotT .. => .alu 12
  | .aluBusAndNotT .. => .alu 13
  | .aluUndef14 .. => .alu 14
  | .aluUndef15 .. => .alu 15
  | .bsReadr .. => .bs 0
  | .bsLoadr .. => .bs 1
  | .bsNone .. => .bs 2
  | .bsTaskSlot3 .. => .bs 3
  | .bsTaskSlot4 .. => .bs 4
  | .bsReadmd .. => .bs 5
  | .bsMouse .. => .bs 6
  | .bsDisp .. => .bs 7
  | .f1None .. => .f1 0
  | .f1Loadmar .. => .f1 1
  | .f1Task .. => .f1 2
  | .f1Block .. => .f1 3
  | .f1Llsh1 .. => .f1 4
  | .f1Lrsh1 .. => .f1 5
  | .f1Llcy8 .. => .f1 6
  | .f1Const .. => .f1 7
  | .f1TaskSlot0o10 .. => .f1 8
  | .f1TaskSlot0o11 .. => .f1 9
  | .f1TaskSlot0o12 .. => .f1 10
  | .f1TaskSlot0o13 .. => .f1 11
  | .f1TaskSlot0o14 .. => .f1 12
  | .f1TaskSlot0o15 .. => .f1 13
  | .f1TaskSlot0o16 .. => .f1 14
  | .f1TaskSlot0o17 .. => .f1 15
  | .f2None .. => .f2 0
  | .f2Buseq0 .. => .f2 1
  | .f2Shlt0 .. => .f2 2
  | .f2Sheq0 .. => .f2 3
  | .f2Bus .. => .f2 4
  | .f2Alucy .. => .f2 5
  | .f2Loadmd .. => .f2 6
  | .f2Const .. => .f2 7
  | .f2TaskSlot0o10 .. => .f2 8
  | .f2TaskSlot0o11 .. => .f2 9
  | .f2TaskSlot0o12 .. => .f2 10
  | .f2TaskSlot0o13 .. => .f2 11
  | .f2TaskSlot0o14 .. => .f2 12
  | .f2TaskSlot0o15 .. => .f2 13
  | .f2TaskSlot0o16 .. => .f2 14
  | .f2TaskSlot0o17 .. => .f2 15
  | .loadT .. => .loadT
  | .loadL .. => .loadL

/-- The row that names the word with these fields. -/
def namingRow (d : Microword) : Row := namedBy d.aluf d.bs d.f1 d.f2 d.loadt d.loadl

/-- A word seen from one of its rows. -/
def seenFrom (r : Row) (d : Microword) : Instr :=
  match r with
  | .alu _ => aluInstr d
  | .bs _ => bsInstr d
  | .f1 _ => f1Instr d
  | .f2 _ => f2Instr d
  | .loadT => .loadT d.rsel d.aluf d.bs d.f1 d.f2 d.loadl d.next
  | .loadL => .loadL d.rsel d.aluf d.bs d.f1 d.f2 d.loadt d.next

/-- A row is one of a word's rows where the word has the row's value in the row's field. -/
def RowOf (r : Row) (d : Microword) : Prop :=
  match r with
  | .alu k => k = d.aluf
  | .bs k => k = d.bs
  | .f1 k => k = d.f1
  | .f2 k => k = d.f2
  | .loadT => d.loadt = true
  | .loadL => d.loadl = true

/-- The decoder names a word by seeing it from its naming row. -/
theorem nameWord_eq_seenFrom (d : Microword) : nameWord d = seenFrom (namingRow d) d := by
  unfold nameWord seenFrom namingRow
  split <;> simp_all

/-- The word of an instruction, seen from the instruction's own row, is the instruction. -/
theorem seenFrom_ownRow (i : Instr) : seenFrom (ownRow i) (instrFields i) = i := by
  cases i <;> rfl

/-- An instruction is well formed exactly when its own row names its word. -/
theorem wellFormed_iff (i : Instr) : WellFormed i = true ↔ namingRow (instrFields i) = ownRow i := by
  cases i <;> exact beq_iff_eq

theorem ownRow_aluInstr (d : Microword) : ownRow (aluInstr d) = .alu d.aluf := by
  obtain ⟨rsel, aluf, bs, f1, f2, lt, ll, next⟩ := d
  obtain ⟨k, hk, rfl⟩ := exists_ofNat aluf
  interval_cases k <;> rfl

theorem ownRow_bsInstr (d : Microword) : ownRow (bsInstr d) = .bs d.bs := by
  obtain ⟨rsel, aluf, bs, f1, f2, lt, ll, next⟩ := d
  obtain ⟨k, hk, rfl⟩ := exists_ofNat bs
  interval_cases k <;> rfl

theorem ownRow_f1Instr (d : Microword) : ownRow (f1Instr d) = .f1 d.f1 := by
  obtain ⟨rsel, aluf, bs, f1, f2, lt, ll, next⟩ := d
  obtain ⟨k, hk, rfl⟩ := exists_ofNat f1
  interval_cases k <;> rfl

theorem ownRow_f2Instr (d : Microword) : ownRow (f2Instr d) = .f2 d.f2 := by
  obtain ⟨rsel, aluf, bs, f1, f2, lt, ll, next⟩ := d
  obtain ⟨k, hk, rfl⟩ := exists_ofNat f2
  interval_cases k <;> rfl

/-- A word seen from one of its rows is an instruction of that row. -/
theorem ownRow_seenFrom {r : Row} {d : Microword} (h : RowOf r d) : ownRow (seenFrom r d) = r := by
  cases r with
  | alu k => exact (ownRow_aluInstr d).trans (congrArg Row.alu (Eq.symm h))
  | bs k => exact (ownRow_bsInstr d).trans (congrArg Row.bs (Eq.symm h))
  | f1 k => exact (ownRow_f1Instr d).trans (congrArg Row.f1 (Eq.symm h))
  | f2 k => exact (ownRow_f2Instr d).trans (congrArg Row.f2 (Eq.symm h))
  | loadT => rfl
  | loadL => rfl

/-- The row that names a word is one of the word's rows. -/
theorem rowOf_namingRow (d : Microword) : RowOf (namingRow d) d := by
  unfold namingRow namedBy
  repeat' split
  all_goals simp_all [RowOf]

/-- What the decoder names has the fields it was given, and its own row names them. -/
theorem wellFormed_nameWord (d : Microword) : WellFormed (nameWord d) = true := by
  rw [wellFormed_iff, instrFields_nameWord, nameWord_eq_seenFrom, ownRow_seenFrom (rowOf_namingRow d)]

/-- Settles O1: the decoder sees the word from its naming row, which for a well-formed instruction is the instruction's own. -/
theorem decodeOfEncode : Obligations.DecodeOfEncode := by
  intro i hwf
  rw [decode, wordFields_encode, nameWord_eq_seenFrom, (wellFormed_iff i).mp hwf, seenFrom_ownRow]

/-- Settles O2: naming keeps the fields, and packing the fields of a word gives the word back. -/
theorem encodeOfDecode : Obligations.EncodeOfDecode := by
  intro w
  exact ⟨wellFormed_nameWord _, by rw [encode, instrFields_decode, encodeFields_wordFields]⟩

/-- Settles O4: each word decodes as listed, by evaluation of the decoder on it. -/
theorem writtenOutWordsDecode : Obligations.WrittenOutWordsDecode := by
  refine ⟨?_, ?_, ?_, ?_, ?_, ?_, ?_, ?_, ?_⟩ <;> decide

/-- Settles O5: one word has one list of fields, and every meaning is the microcycle of the fields. -/
theorem rowsOfOneWordAgree : Obligations.RowsOfOneWordAgree := by
  intro i j s h
  have hfields : instrFields i = instrFields j := by
    rw [← wordFields_encode i, ← wordFields_encode j, h]
  rw [Machine.exec_eq_microcycle, Machine.exec_eq_microcycle, hfields]

end Sys2Proof
end

section
/-! PROOFS. The frame of an instruction and the invariant of the states (R4, R21, R31, R34): what the two phases of a cycle keep,
what the commit and the next address keep after them, and what the events between two cycles keep. -/

namespace Sys2Proof.Machine

/-! ## What an instruction can do -/

/-- All that an instruction which answers a state can do: nothing, a fatal error, or a whole cycle. -/
theorem exec_next_cases {i : Instr} {s u : State} (h : exec i s = .next u) :
    u = s ∨ (∃ f, s.run = .running ∧ cycleBody (instrFields i) s = .error (.fatal f) ∧ u = takeFatal s f) ∨
      ∃ c c', s.run = .running ∧ stalled (instrFields i) s = false ∧ earlyPhase (instrFields i) s = .ok c ∧
        latePhase (aluPhase c) = .ok c' ∧
        u = nextAddress (instrFields i) c'.nmod (commit (instrFields i) (cycleAlu c) c.bus c'.st) := by
  rw [exec_eq_microcycle] at h
  obtain ⟨-, hs⟩ | ⟨hrun, hstall, ⟨t, ht, hm⟩ | ⟨f, hf, hm⟩ | ⟨e, -, hm⟩ | ⟨r, -, hm⟩⟩ :=
    microcycle_cases (instrFields i) s
  · rw [hs] at h
    cases h
    exact .inl rfl
  · rw [hm] at h
    cases h
    obtain ⟨c, c', he, hl, rfl⟩ := cycleBody_ok ht
    exact .inr (.inr ⟨c, c', hrun, hstall, he, hl, rfl⟩)
  · rw [hm] at h
    cases h
    exact .inr (.inl ⟨f, hrun, hf, rfl⟩)
  · rw [hm] at h
    cases h
  · rw [hm] at h
    cases h

/-- What both phases of a cycle leave of the state they started from: `u` is the state after the late phase. -/
structure PhasesKeep (s u : State) : Prop where
  run      : u.run = s.run
  cfg      : u.cfg = s.cfg
  task     : u.task = s.task
  l        : u.l = s.l
  t        : u.t = s.t
  m        : u.m = s.m
  laluc0   : u.laluc0 = s.laluc0
  taskMpc  : u.taskMpc = s.taskMpc
  taskPage : u.taskPage = s.taskPage
  bankreg  : u.bankreg = s.bankreg
  confTask : u.confTask = s.confTask
  ticks    : u.ticks = s.ticks
  inputs   : u.inputs = s.inputs
  sregs    : u.sregs.length = s.sregs.length
  page     : s.page < 2 ^ s.cfg.pageBits → u.page < 2 ^ s.cfg.pageBits
  sbank    : (∀ k, at16 s.sbank k < s.cfg.sBanks) → ∀ k, at16 u.sbank k < s.cfg.sBanks

theorem aluPhase_keeps (c : Cyc) : PhasesKeep c.st (aluPhase c).st := by
  constructor <;> simp [aluPhase]

theorem PortFrame.keeps {c c' : Cyc} (h : PortFrame c c') : PhasesKeep c.st c'.st :=
  ⟨h.run, h.cfg, h.task, h.l, h.t, h.m, h.laluc0, h.taskMpc, h.taskPage, h.bankreg, h.confTask, h.ticks, h.inputs, h.sregs,
    h.page, h.sbank⟩

theorem PhasesKeep.trans {a b c : State} (h : PhasesKeep a b) (k : PhasesKeep b c) : PhasesKeep a c where
  run := k.run.trans h.run
  cfg := k.cfg.trans h.cfg
  task := k.task.trans h.task
  l := k.l.trans h.l
  t := k.t.trans h.t
  m := k.m.trans h.m
  laluc0 := k.laluc0.trans h.laluc0
  taskMpc := k.taskMpc.trans h.taskMpc
  taskPage := k.taskPage.trans h.taskPage
  bankreg := k.bankreg.trans h.bankreg
  confTask := k.confTask.trans h.confTask
  ticks := k.ticks.trans h.ticks
  inputs := k.inputs.trans h.inputs
  sregs := k.sregs.trans h.sregs
  page := fun x => h.cfg ▸ k.page (h.cfg.symm ▸ h.page x)
  sbank := fun x => h.cfg ▸ k.sbank (h.cfg.symm ▸ h.sbank x)

/-- Both phases with the ALU and the write-back between them. -/
theorem phases_keep {d : Microword} {s : State} {c c' : Cyc} (he : earlyPhase d s = .ok c)
    (hl : latePhase (aluPhase c) = .ok c') : PhasesKeep s c'.st :=
  ((earlyPhase_frame he).keeps.trans (aluPhase_keeps c)).trans (latePhase_frame hl).keeps

/-- The store after both phases is the one that the write-back left. -/
theorem phases_store {c c' : Cyc} (hl : latePhase (aluPhase c) = .ok c') :
    c'.st.store = (writeBack c.st (cycleAlu c).alu).store :=
  (latePhase_frame hl).store

/-! ## The frame of every instruction -/

theorem nextAddress_task (d : Microword) (n : MicroAddr) (s : State) : (nextAddress d n s).task = s.confTask :=
  (switchEvaluation_cells _).1

/-- Step 10 writes no saved address but the current task's, and that one only where a switch is due (R254, R256). -/
theorem nextAddress_saved (d : Microword) (n : MicroAddr) (s : State) :
    (∀ k, k ≠ s.task →
      at16 (nextAddress d n s).taskMpc k = at16 s.taskMpc k ∧ at16 (nextAddress d n s).taskPage k = at16 s.taskPage k) ∧
      (s.confTask = s.task → (nextAddress d n s).taskMpc = s.taskMpc ∧ (nextAddress d n s).taskPage = s.taskPage) := by
  by_cases hswitch : s.confTask = s.task
  · rw [nextAddress_stay d n s hswitch]
    exact ⟨fun _ _ => ⟨rfl, rfl⟩, fun _ => ⟨rfl, rfl⟩⟩
  · obtain ⟨-, -, -, hmpc, hpage, -⟩ := nextAddress_switch d n s hswitch
    rw [hmpc, hpage]
    exact ⟨fun k hk => ⟨at16_set16_other _ _ hk, at16_set16_other _ _ hk⟩, fun h => absurd h hswitch⟩

/-- Settles O49: nothing changes in an idle or a fatal cycle but the run state; in a whole one the phases keep the fields, and
the commit and the next address have their own equations for the latches and the saved addresses. -/
theorem execFrame : Obligations.ExecFrame := by
  intro i s u h
  obtain rfl | ⟨f, -, -, rfl⟩ | ⟨c, c', -, -, he, hl, rfl⟩ := exec_next_cases h
  · exact ⟨rfl, rfl, rfl, rfl, fun _ => ⟨rfl, rfl, rfl⟩, fun _ => rfl, fun _ _ => ⟨rfl, rfl⟩, fun _ => ⟨rfl, rfl, rfl⟩⟩
  · exact ⟨rfl, rfl, rfl, rfl, fun _ => ⟨rfl, rfl, rfl⟩, fun _ => rfl, fun _ _ => ⟨rfl, rfl⟩, fun _ => ⟨rfl, rfl, rfl⟩⟩
  · have keep := phases_keep he hl
    obtain ⟨hother, hstay⟩ :=
      nextAddress_saved (instrFields i) c'.nmod (commit (instrFields i) (cycleAlu c) c.bus c'.st)
    simp only [commit_task, commit_confTask, commit_taskMpc, commit_taskPage, keep.task, keep.confTask, keep.taskMpc,
      keep.taskPage] at hother hstay
    refine ⟨?cfg, ?bankreg, ?inputs, ?ticks, ?loadl, ?loadt, hother, fun hconf => ⟨?task, hstay hconf⟩⟩
    case cfg => rw [nextAddress_cfg, commit_cfg, keep.cfg]
    case bankreg => rw [nextAddress_bankreg, commit_bankreg, keep.bankreg]
    case inputs => rw [nextAddress_inputs, commit_inputs, keep.inputs]
    case ticks => rw [nextAddress_ticks, commit_ticks, keep.ticks]
    case loadl =>
      intro hflag
      simp [commit_l, commit_laluc0, commit_m, hflag, keep.l, keep.laluc0, keep.m]
    case loadt =>
      intro hflag
      simp [commit_t, hflag, keep.t]
    case task => rw [nextAddress_task, commit_confTask, keep.confTask, hconf]

/-! ## The invariant -/

/-- The invariant reads these fields only. -/
theorem State.WellFormed.congr {s u : State} (h : s.WellFormed) (hcfg : u.cfg = s.cfg) (hpage : u.page = s.page)
    (htaskPage : u.taskPage = s.taskPage) (hsbank : u.sbank = s.sbank) (hsregs : u.sregs = s.sregs)
    (hstore : u.store = s.store) : u.WellFormed := by
  constructor
  case cfg => rw [hcfg]; exact h.cfg
  case page => rw [hcfg, hpage]; exact h.page
  case taskPage => rw [hcfg, htaskPage]; exact h.taskPage
  case sbank => rw [hcfg, hsbank]; exact h.sbank
  case sregs => rw [hcfg, hsregs]; exact h.sregs
  case store => rw [hstore]; exact h.store

theorem phases_wf {d : Microword} {s : State} {c c' : Cyc} (h : s.WellFormed) (he : earlyPhase d s = .ok c)
    (hl : latePhase (aluPhase c) = .ok c') : c'.st.WellFormed := by
  have keep := phases_keep he hl
  have hstore : c.st.store = s.store := (earlyPhase_frame he).store
  constructor
  case cfg => rw [keep.cfg]; exact h.cfg
  case page => rw [keep.cfg]; exact keep.page h.page
  case taskPage => rw [keep.cfg, keep.taskPage]; exact h.taskPage
  case sbank => rw [keep.cfg]; exact keep.sbank h.sbank
  case sregs => rw [keep.cfg, keep.sregs]; exact h.sregs
  case store => rw [phases_store hl]; exact writeBack_wf _ _ (hstore ▸ h.store)

theorem commit_wf {s : State} (d : Microword) (o : AluOut) (bus : Word) (h : s.WellFormed) :
    (commit d o bus s).WellFormed := by
  constructor
  case cfg => simpa using h.cfg
  case page => simpa using h.page
  case taskPage => simpa using h.taskPage
  case sbank => simpa using h.sbank
  case sregs => simpa [commit_length] using h.sregs
  case store => simpa using h.store

theorem nextAddress_wf {s : State} (d : Microword) (n : MicroAddr) (h : s.WellFormed) : (nextAddress d n s).WellFormed := by
  by_cases hswitch : s.confTask = s.task
  · rw [nextAddress_stay d n s hswitch]
    exact h.congr rfl rfl rfl rfl rfl rfl
  · obtain ⟨-, -, hpage, -, htaskPage, -⟩ := nextAddress_switch d n s hswitch
    constructor
    case cfg => simpa using h.cfg
    case page => rw [hpage, nextAddress_cfg]; exact h.taskPage _
    case taskPage =>
      intro k
      rw [htaskPage, nextAddress_cfg, at16_set16]
      split
      · exact h.page
      · exact h.taskPage k
    case sbank => simpa using h.sbank
    case sregs => simpa using h.sregs
    case store => simpa using h.store

theorem exec_wf {i : Instr} {s u : State} (h : s.WellFormed) (hu : exec i s = .next u) : u.WellFormed := by
  obtain rfl | ⟨f, -, -, rfl⟩ | ⟨c, c', -, -, he, hl, rfl⟩ := exec_next_cases hu
  · exact h
  · exact h.congr rfl rfl rfl rfl rfl rfl
  · exact nextAddress_wf _ _ (commit_wf _ _ _ (phases_wf h he hl))

/-- What a well-formed configuration promises (R4). -/
theorem Config.wf_pages {c : Config} (h : c.wf = true) :
    1 ≤ c.romPages ∧ 1 ≤ c.ramPages ∧ c.romPages + c.ramPages = 2 ^ c.pageBits ∧ 1 ≤ c.sBanks := by
  simp only [Config.wf, Bool.and_eq_true, decide_eq_true_eq] at h
  obtain ⟨⟨⟨⟨⟨hrom, hram⟩, hsum⟩, hs⟩, -⟩, -⟩ := h
  exact ⟨hrom, hram, hsum, hs⟩

theorem Config.wf_initOffset {c : Config} (h : c.wf = true) (k : Task) : at16 c.initOffset k < 1024 := by
  simp only [Config.wf, Bool.and_eq_true, List.all_eq_true, decide_eq_true_eq] at h
  obtain ⟨-, hoff⟩ := h
  exact hoff _ (by simp [at16])

/-- A start page is a page of the store: ROM page 0 or the first RAM page (R32). -/
theorem bootPage_lt {c : Config} (h : c.wf = true) (k : Task) : bootPage c k < 2 ^ c.pageBits := by
  obtain ⟨hrom, hram, hsum, -⟩ := Config.wf_pages h
  unfold bootPage
  split <;> omega

@[simp] theorem at16_bootPages (c : Config) (k : Task) : at16 (bootPages c) k = bootPage c k := by
  simp [bootPages]

@[simp] theorem at16_bootMpcs (c : Config) (k : Task) : at16 (bootMpcs c) k = bootMpc c k := by
  simp [bootMpcs]

theorem softReset_wf {s : State} (h : s.WellFormed) : (softReset s).WellFormed := by
  constructor
  case cfg => exact h.cfg
  case page => exact bootPage_lt h.cfg 0
  case taskPage => intro k; rw [softReset_taskPage, at16_bootPages]; exact bootPage_lt h.cfg k
  case sbank => exact h.sbank
  case sregs => exact h.sregs
  case store => exact h.store

theorem applyEvent_wf {s : State} (h : s.WellFormed) (e : Event) : (applyEvent s e).WellFormed := by
  cases e with
  | wake k => exact h.congr rfl rfl rfl rfl rfl rfl
  | unwake k => exact h.congr rfl rfl rfl rfl rfl rfl
  | busWrite a v =>
    cases hoff : bankRegOffset s.cfg a with
    | some off => rw [applyEvent_busWrite_inside hoff]; exact h.congr rfl rfl rfl rfl rfl rfl
    | none => rw [applyEvent_busWrite_outside hoff]; exact h
  | busRead a =>
    cases hoff : bankRegOffset s.cfg a with
    | some off => rw [applyEvent_busRead_inside hoff]; exact h.congr rfl rfl rfl rfl rfl rfl
    | none => rw [applyEvent_busRead_outside hoff]; exact h
  | softReset => exact (softReset_wf h).congr rfl rfl rfl rfl rfl rfl

theorem applyEvents_wf {s : State} (h : s.WellFormed) (es : List Event) : (applyEvents es s).WellFormed := by
  induction es generalizing s with
  | nil => exact h
  | cons e rest ih => exact ih (applyEvent_wf h e)

theorem endIteration_wf {s : State} (h : s.WellFormed) : (endIteration s).WellFormed := by
  have htick : State.WellFormed { s with ticks := s.ticks + 1, inputs := s.inputs.tail } :=
    h.congr rfl rfl rfl rfl rfl rfl
  exact applyEvents_wf htick _

/-- Settles O50: a step is nothing, or an instruction and the end of its iteration, and each keeps the invariant. -/
theorem stepKeepsWellFormed : Obligations.StepKeepsWellFormed := by
  intro s u h hstep
  obtain rfl | ⟨w, t, -, -, ht, rfl⟩ := step_cases hstep
  · exact h
  · exact endIteration_wf (exec_wf h ht)

/-! ## The resets -/

theorem cold_wf {c : Config} (h : c.wf = true) : (State.cold c).WellFormed := by
  obtain ⟨-, -, -, hs⟩ := Config.wf_pages h
  constructor
  case cfg => exact h
  case page => exact bootPage_lt h 0
  case taskPage =>
    intro k
    change at16 (bootPages c) k < _
    rw [at16_bootPages]
    exact bootPage_lt h k
  case sbank =>
    intro k
    change at16 (Vector.replicate 16 0) k < c.sBanks
    rw [at16_replicate]
    exact hs
  case sregs => exact List.length_replicate
  case store => exact wf_bootStore c

/-- Settles O51: `State.reset` is the cold reset under the default configuration, which is well formed. -/
theorem resetIsWellFormed : Obligations.ResetIsWellFormed :=
  ⟨cold_wf (by decide), fun _ h => cold_wf h⟩

/-- A start address in range loses nothing in ten bits (R32). -/
theorem bootMpc_toNat {c : Config} (h : c.wf = true) (k : Task) : (bootMpc c k).toNat = at16 c.initOffset k := by
  rw [bootMpc, BitVec.toNat_ofNat]
  exact Nat.mod_eq_of_lt (Config.wf_initOffset h k)

/-- Settles O55: cold reset checks the configuration and then answers `State.cold`, whose tables are constant or the start
values of the tasks. -/
theorem coldResetState : Obligations.ColdResetState := by
  intro c
  refine ⟨fun h => by simp [coldReset, h], fun h => ⟨State.cold c, by simp [coldReset, h], rfl, rfl, rfl, fun k => ?tables,
    ?mpc, ?page, ?fetch, rfl, rfl, rfl⟩⟩
  case tables =>
    simp only [State.cold, at16_bootMpcs, at16_bootPages, at16_replicate, bootMpc_toNat h]
    exact ⟨trivial, rfl, trivial, trivial⟩
  case mpc => exact (at16_bootMpcs c 0).symm
  case page => exact (at16_bootPages c 0).symm
  case fetch => simp only [fetchAddr, State.cold, at16_bootPages, bootMpc_toNat h, pageSize]

/-- Settles O57: the start values of the tasks, task by task; every other field is untouched. -/
theorem softResetRestartsTheTasks : Obligations.SoftResetRestartsTheTasks := by
  intro s
  refine ⟨rfl, rfl, rfl, rfl, fun k => ⟨?mpc, ?page⟩, rfl⟩
  case mpc => rw [softReset_taskMpc, at16_bootMpcs]; rfl
  case page => rw [softReset_taskPage, at16_bootPages]; rfl

end Sys2Proof.Machine
end

section
/-! PROOFS. The step around an instruction, the halt and the host's loop (R42, R240 to R242, R247, R248, R270), the loading of
the images (R38, R300), and the scheduler's arbitration (R279, R280). -/

namespace Sys2Proof.Machine

/-! ## The step -/

/-- A running core whose fetch finds a word runs it and ends the iteration (R246). -/
theorem step_of_fetch {s : State} {w : UWord} (hrun : s.run = .running) (hfetch : fetch s = some w) :
    step s = finish (exec (decode w) s) := by
  simp only [step, hrun, hfetch]

theorem step_of_no_fetch {s : State} (hrun : s.run = .running) (hfetch : fetch s = none) :
    step s = .fault (.unwrittenFetch (fetchAddr s)) := by
  simp only [step, hrun, hfetch]

/-- Settles O6: the stored form of the instruction's word is fetched and decoded back (O1); an instruction leaves the inputs
and the tick count (O49), which the end of the iteration then moves on. -/
theorem stepRunsTheDecodedInstruction : Obligations.StepRunsTheDecodedInstruction := by
  intro s i hrun hwf hread
  have hstep : step s = finish (exec i s) := by
    rw [step_of_fetch hrun (fetch_of_read hread), decodeOfEncode i hwf]
  rw [hstep]
  cases hexec : exec i s with
  | next t =>
    obtain ⟨-, -, hinputs, hticks, -⟩ := execFrame i s t hexec
    simp only [finish, endIteration, State.input, hinputs, hticks]
  | fault e => rfl
  | refused r => rfl

/-- Settles O7: the fetch reads the store at the page and the micro address. -/
theorem unwrittenFetchFaults : Obligations.UnwrittenFetchFaults := by
  intro s hrun hread
  have hfetch : fetch s = none := by
    rw [fetch, uFetch, fetchAddr, hread, Option.map_none]
  exact step_of_no_fetch hrun hfetch

/-! ## The halt and the stall -/

theorem microcycle_of_halted {s : State} {f : Fatal} (h : s.run = .halted f) (d : Microword) : microcycle d s = .next s := by
  simp only [microcycle, h]

theorem step_of_halted {s : State} {f : Fatal} (h : s.run = .halted f) : step s = .next s := by
  simp only [step, h]

theorem core_run_of_halted {s : State} {f : Fatal} (h : s.run = .halted f) (n : Nat) : core.run n s = .next s := by
  induction n with
  | zero => rfl
  | succ n ih => rw [core_run_succ (step_of_halted h), ih]

theorem hostRun_of_halted {s : State} {f : Fatal} (h : s.run = .halted f) (n : Nat) : hostRun n s = .next s := by
  cases n <;> simp only [hostRun, h]

theorem microcycle_of_fatal {d : Microword} {s : State} {f : Fatal} (hrun : s.run = .running) (hstall : stalled d s = false)
    (hf : cycleBody d s = .error (.fatal f)) : microcycle d s = .next (takeFatal s f) := by
  simp [microcycle, hrun, hstall, hf, cycleOutcome]

/-- Settles O8: each way of running a halted core looks at the run state first, and no event writes it. -/
theorem haltedCoreTakesNoCycle : Obligations.HaltedCoreTakesNoCycle := by
  refine ⟨fun c hc => ⟨State.cold c, by simp [coldReset, hc], rfl⟩, fun i s f hrun hstall hf => ?fatal, fun s f h => ?halted⟩
  case fatal =>
    exact ⟨takeFatal s f, by rw [exec_eq_microcycle, microcycle_of_fatal hrun hstall hf], rfl⟩
  case halted =>
    refine ⟨fun i => by rw [exec_eq_microcycle, microcycle_of_halted h], step_of_halted h,
      fun n => ⟨hostRun_of_halted h n, core_run_of_halted h n⟩, h, fun e => ?_⟩
    obtain ⟨hrun, -⟩ := applyEvent_frame s e
    rw [hrun, h]

/-- The three stall queries of R248, by the codes of the word. -/
theorem stalled_iff (d : Microword) (s : State) :
    stalled d s = true ↔
      (d.f1 = 1 ∧ s.input.marStall.getLsbD d.rsel.toNat = true) ∨ (d.f2 = 6 ∧ s.input.writeStall = true) ∨
        (d.bs = 5 ∧ constSel s.cfg d = false ∧ s.input.readStall = true) := by
  simp [stalled, f1Loadmar, f2Loadmd, bsReadmd, or_assoc, and_assoc]

/-- A word is off the constant path when no field selects it (R152). -/
theorem constSel_eq_false (c : Config) (d : Microword) :
    constSel c d = false ↔ d.f1 ≠ c.f1Const ∧ d.f2 ≠ c.f2Const ∧ d.bs.toNat < c.bsConstThreshold := by
  simp [constSel, and_assoc]

/-- Settles O9: each of the three queries makes the word stall, and a stalled word changes nothing. -/
theorem stalledWordChangesNothing : Obligations.StalledWordChangesNothing := by
  intro i s h
  rw [exec_eq_microcycle, microcycle_of_stalled]
  rw [stalled_iff]
  obtain h | h | ⟨hbs, hf1, hf2, hbound, hstall⟩ := h
  · exact .inl h
  · exact .inr (.inl h)
  · exact .inr (.inr ⟨hbs, (constSel_eq_false _ _).mpr ⟨hf1, hf2, by rw [hbs]; exact hbound⟩, hstall⟩)

/-! ## The host's loop -/

/-- Settles O58: a run that ends at once saves the task; the saved cells are those that a restore reads back. -/
theorem loopExitSavesTheTask : Obligations.LoopExitSavesTheTask := by
  intro s n hrun hexit
  refine ⟨?exit, by simp, by simp, ?restore, rfl, rfl, rfl⟩
  case exit =>
    cases n with
    | zero => simp only [hostRun, hrun]
    | succ n =>
      have hleave : s.input.leave = true := by simpa using hexit
      simp only [hostRun, hrun, hleave, if_true]
  case restore => simp [loadTask, saveTask]

theorem endIteration_ticks (s : State) : (endIteration s).ticks = s.ticks + 1 := by
  obtain ⟨-, -, -, -, -, -, hticks, -⟩ := applyEvents_frame s.input.events { s with ticks := s.ticks + 1, inputs := s.inputs.tail }
  exact hticks

/-- A step of a running core counts one iteration, stalled or not (R243). -/
theorem step_ticks {s t : State} (hrun : s.run = .running) (h : step s = .next t) : t.ticks = s.ticks + 1 := by
  cases hf : fetch s with
  | none => simp [step_of_no_fetch hrun hf] at h
  | some w =>
    rw [step_of_fetch hrun hf] at h
    cases hexec : exec (decode w) s with
    | next u =>
      simp only [hexec, finish] at h
      cases h
      obtain ⟨-, -, -, hticks, -⟩ := execFrame _ s u hexec
      rw [endIteration_ticks, hticks]
    | fault e => simp [hexec, finish] at h
    | refused r => simp [hexec, finish] at h

/-- Settles O59, by induction on the budget: each iteration counts one tick, and a run ends early only at a halt or at the
leave flag, which the save leaves as it is. -/
theorem budgetCountsIterations : Obligations.BudgetCountsIterations := by
  intro n
  induction n with
  | zero =>
    intro s u h
    cases hrun : s.run with
    | halted f =>
      rw [hostRun_of_halted hrun] at h
      cases h
      exact ⟨le_rfl, .inl rfl⟩
    | running =>
      simp only [hostRun, hrun] at h
      cases h
      exact ⟨le_rfl, .inl rfl⟩
  | succ n ih =>
    intro s u h
    cases hrun : s.run with
    | halted f =>
      rw [hostRun_of_halted hrun] at h
      cases h
      exact ⟨Nat.le_add_right _ _, .inr (.inl (by simp [hrun]))⟩
    | running =>
      simp only [hostRun, hrun] at h
      cases hleave : s.input.leave with
      | true =>
        simp only [hleave, if_true] at h
        cases h
        exact ⟨Nat.le_add_right _ _, .inr (.inr hleave)⟩
      | false =>
        simp only [hleave, Bool.false_eq_true, if_false] at h
        cases hstep : step s with
        | next t =>
          simp only [hstep] at h
          have hticks := step_ticks hrun hstep
          obtain ⟨hle, hend⟩ := ih t u h
          rw [hticks] at hle hend
          exact ⟨by omega, hend.imp_left (by omega)⟩
        | fault e => simp [hstep] at h
        | refused r => simp [hstep] at h

/-! ## The images -/

/-- Loading an image writes no address outside its pages. -/
theorem read_loadImage_outside {base size x : Nat} (hx : x < base ∨ base + size ≤ x) (img : List (Nat × UWord)) {st : Memory}
    (hst : Memory.wf st = true) : (loadImage base size img st).read x = st.read x := by
  induction img generalizing st with
  | nil => rfl
  | cons p rest ih =>
    obtain ⟨a, v⟩ := p
    rw [loadImage]
    split
    · next ha =>
      rw [ih (Memory.wf_write _ _ _ hst), Memory.read_write_other _ hst]
      omega
    · exact ih hst

/-- An image that lists each address once leaves its own words in its pages, and at the other addresses what was there. -/
theorem read_loadImage_inside {base size a : Nat} (ha : a < size) {w : UWord} {img : List (Nat × UWord)}
    (hnodup : (img.map Prod.fst).Nodup) {st : Memory} (hst : Memory.wf st = true) :
    (loadImage base size img st).read (base + a) = some w ↔
      (a, w) ∈ img ∨ (a ∉ img.map Prod.fst ∧ st.read (base + a) = some w) := by
  induction img generalizing st with
  | nil => simp [loadImage]
  | cons p rest ih =>
    obtain ⟨b, v⟩ := p
    rw [List.map_cons, List.nodup_cons] at hnodup
    obtain ⟨hb, hrest⟩ := hnodup
    have hnot : (b, w) ∉ rest := fun h => hb (List.mem_map.mpr ⟨(b, w), h, rfl⟩)
    rw [loadImage]
    by_cases hba : b = a
    · subst hba
      rw [if_pos ha, ih hrest (Memory.wf_write _ _ _ hst), Memory.read_write_same _ hst]
      simp [hnot, hb, eq_comm]
    · have hread : (if b < size then st.write (base + b) v else st).read (base + a) = st.read (base + a) := by
        split
        · rw [Memory.read_write_other _ hst]
          omega
        · rfl
      have hwf : Memory.wf (if b < size then st.write (base + b) v else st) = true := by
        split
        · exact Memory.wf_write _ _ _ hst
        · exact hst
      rw [ih hrest hwf, hread]
      simp [Ne.symm hba]

/-- Settles O56: the RAM image lies above the ROM pages, so each image is read through the other as if alone, over a store
that holds nothing. -/
theorem coldResetLoadsTheImages : Obligations.ColdResetLoadsTheImages := by
  intro c a w hrom hram
  change (_ → ((bootStore c).read a = some w ↔ _)) ∧ (_ → ((bootStore c).read (c.romPages * 1024 + a) = some w ↔ _)) ∧
    (_ → (bootStore c).read a = none)
  have hempty : Memory.wf [] = true := rfl
  have hromWf := wf_loadImage 0 (c.romPages * pageSize) c.romImage [] hempty
  unfold bootStore
  refine ⟨fun ha => ?rom, fun ha => ?ram, fun ha => ?above⟩
  case rom =>
    rw [read_loadImage_outside (.inl ha) _ hromWf]
    simpa using read_loadImage_inside (base := 0) ha hrom hempty
  case ram =>
    have hbelow := read_loadImage_outside (base := 0) (size := c.romPages * pageSize) (x := c.romPages * pageSize + a)
      (.inr (by omega)) c.romImage hempty
    rw [read_loadImage_inside ha hram hromWf, hbelow]
    simp
  case above =>
    have habove : c.romPages * pageSize + c.ramPages * pageSize ≤ a := by rw [← Nat.add_mul]; exact ha
    rw [read_loadImage_outside (.inr habove) _ hromWf, read_loadImage_outside (.inr (by omega)) _ hempty, Memory.read_nil]

/-! ## The scheduler -/

/-- The scan of the `n` low bits finds none exactly where none of them is set. -/
theorem highestBelow_eq_none (mask : BitVec 16) (n : Nat) :
    highestBelow mask n = none ↔ ∀ k < n, mask.getLsbD k = false := by
  induction n with
  | zero => simp [highestBelow]
  | succ n ih =>
    rw [highestBelow, Nat.forall_lt_succ_right]
    cases hn : mask.getLsbD n with
    | true => simp
    | false => simpa using ih

/-- The scan of the `n` low bits finds a set bit with no set bit above it among them. -/
theorem highestBelow_eq_some (mask : BitVec 16) {n : Nat} (hn : n ≤ 16) (j : Task) :
    highestBelow mask n = some j ↔
      j.toNat < n ∧ mask.getLsbD j.toNat = true ∧ ∀ k, j.toNat < k → k < n → mask.getLsbD k = false := by
  induction n with
  | zero => simp [highestBelow]
  | succ n ih =>
    rw [highestBelow]
    cases hbit : mask.getLsbD n with
    | true =>
      simp only [if_true, Option.some_inj]
      constructor
      · rintro rfl
        have hval : (BitVec.ofNat 4 n).toNat = n := by
          rw [BitVec.toNat_ofNat]
          exact Nat.mod_eq_of_lt (by omega)
        rw [hval]
        exact ⟨n.lt_succ_self, hbit, fun k h1 h2 => by omega⟩
      · rintro ⟨hlt, -, hnone⟩
        have hge : ¬ j.toNat < n := fun h => by simp [hnone n h n.lt_succ_self] at hbit
        apply BitVec.eq_of_toNat_eq
        rw [BitVec.toNat_ofNat]
        omega
    | false =>
      rw [if_neg (by simp), ih (by omega)]
      constructor
      · rintro ⟨hlt, hset, hnone⟩
        refine ⟨by omega, hset, fun k h1 h2 => ?_⟩
        obtain hk | rfl := Nat.lt_succ_iff_lt_or_eq.mp h2
        · exact hnone k h1 hk
        · exact hbit
      · rintro ⟨hlt, hset, hnone⟩
        have hne : j.toNat ≠ n := fun h => by simp [h, hbit] at hset
        exact ⟨by omega, hset, fun k h1 h2 => hnone k h1 (by omega)⟩

/-- Arbitration finds no task exactly in the empty mask (R272). -/
theorem highestWakeup_eq_none (mask : BitVec 16) : highestWakeup mask = none ↔ mask = 0 := by
  rw [highestWakeup, highestBelow_eq_none]
  constructor
  · intro h
    apply BitVec.eq_of_getLsbD_eq
    intro k hk
    simpa using h k hk
  · rintro rfl k -
    exact BitVec.getLsbD_zero

/-- Arbitration picks the highest set bit (R279). -/
theorem highestWakeup_eq_some (mask : BitVec 16) (j : Task) :
    highestWakeup mask = some j ↔ mask.getLsbD j.toNat = true ∧ ∀ k : Task, j < k → mask.getLsbD k.toNat = false := by
  rw [highestWakeup, highestBelow_eq_some mask le_rfl]
  constructor
  · rintro ⟨-, hset, hnone⟩
    exact ⟨hset, fun k hk => hnone k.toNat hk k.isLt⟩
  · rintro ⟨hset, hnone⟩
    refine ⟨j.isLt, hset, fun k h1 h2 => ?_⟩
    have hval : (BitVec.ofNat 4 k).toNat = k := by
      rw [BitVec.toNat_ofNat]
      exact Nat.mod_eq_of_lt h2
    have := hnone (BitVec.ofNat 4 k) (by rw [BitVec.lt_def, hval]; exact h1)
    rwa [hval] at this

/-- The mask with one bit set alone, at another bit: the tasks' numbers tell the bits apart. -/
theorem getLsbD_twoPow_task (k j : Task) : (BitVec.twoPow 16 k.toNat).getLsbD j.toNat = (j == k) := by
  rw [BitVec.getLsbD_twoPow, Bool.eq_iff_iff]
  simp only [Bool.and_eq_true, decide_eq_true_eq, beq_iff_eq]
  have := k.isLt
  bv_omega

/-- Settles O60: the two events set and clear the bit of one task, and arbitration is the scan from the top. -/
theorem wakeupBitsAndArbitration : Obligations.WakeupBitsAndArbitration := by
  refine ⟨fun s k j => ⟨?wake, ?unwake, rfl, rfl⟩, fun mask => ⟨highestWakeup_eq_none mask, highestWakeup_eq_some mask⟩⟩
  case wake => rw [applyEvent, wake_wakeup, BitVec.getLsbD_or, getLsbD_twoPow_task]
  case unwake =>
    have hj : decide (j.toNat < 16) = true := decide_eq_true j.isLt
    rw [applyEvent, unwake_wakeup, BitVec.getLsbD_and, BitVec.getLsbD_not, getLsbD_twoPow_task, hj, Bool.true_and]
    rfl

end Sys2Proof.Machine
end

section
/-! PROOFS. The microcode store under an instruction (R61 to R68), and what stops a cycle (R270 to R276). -/

namespace Sys2Proof.Machine

/-! ## What the operations of a phase and of a family keep beyond the common frame -/

/-- An early operation makes no microcode-RAM request (R64, R66), and an operation of another family than F2 changes neither
the register select nor the magic input (R27, R161). -/
structure DispatchKeeps (ph : Phase) (fam : Family) (c c' : Cyc) : Prop where
  wrPend : ph = .early → c'.st.wrPend = c.st.wrPend
  wrAddr : ph = .early → c'.st.wrAddr = c.st.wrAddr
  rsel   : fam ≠ .f2 → c'.rsel = c.rsel
  magic  : fam ≠ .f2 → c'.magic = c.magic

theorem DispatchKeeps.refl (ph : Phase) (fam : Family) (c : Cyc) : DispatchKeeps ph fam c c :=
  ⟨fun _ => rfl, fun _ => rfl, fun _ => rfl, fun _ => rfl⟩

theorem DispatchKeeps.trans {ph : Phase} {fam : Family} {a b c : Cyc} (h : DispatchKeeps ph fam a b)
    (k : DispatchKeeps ph fam b c) : DispatchKeeps ph fam a c where
  wrPend := fun e => (k.wrPend e).trans (h.wrPend e)
  wrAddr := fun e => (k.wrAddr e).trans (h.wrAddr e)
  rsel := fun e => (k.rsel e).trans (h.rsel e)
  magic := fun e => (k.magic e).trans (h.magic e)

/-- A change of the state alone that is no request. -/
theorem mapState_keeps {ph : Phase} {fam : Family} {f : State → State} (c : Cyc) (hpend : (f c.st).wrPend = c.st.wrPend)
    (haddr : (f c.st).wrAddr = c.st.wrAddr) : DispatchKeeps ph fam c (mapState f c) :=
  ⟨fun _ => hpend, fun _ => haddr, fun _ => rfl, fun _ => rfl⟩

theorem andBus_keeps {ph : Phase} {fam : Family} (v : Word) (c : Cyc) : DispatchKeeps ph fam c (andBus v c) :=
  ⟨fun _ => rfl, fun _ => rfl, fun _ => rfl, fun _ => rfl⟩

theorem orNext_keeps {ph : Phase} {fam : Family} (v : Word) (c : Cyc) : DispatchKeeps ph fam c (orNext v c) :=
  ⟨fun _ => rfl, fun _ => rfl, fun _ => rfl, fun _ => rfl⟩

theorem answered_keeps {ph : Phase} {fam : Family} (v : Word) (c : Cyc) : DispatchKeeps ph fam c (answered v c) :=
  ⟨fun _ => rfl, fun _ => rfl, fun _ => rfl, fun _ => rfl⟩

/-- A request comes in the late phase only, so it is no early change. -/
theorem request_keeps {ph : Phase} {fam : Family} {f : State → State} (c : Cyc) (hlate : ph = .late) :
    DispatchKeeps ph fam c (mapState f c) :=
  ⟨fun h => by simp [hlate] at h, fun h => by simp [hlate] at h, fun _ => rfl, fun _ => rfl⟩

theorem arbitrate_keeps {ph : Phase} {fam : Family} {c c' : Cyc} (h : arbitrate c = .ok c') :
    DispatchKeeps ph fam c c' := by
  obtain ⟨j, -, hj⟩ | ⟨-, hn⟩ := arbitrate_cases c
  · rw [hj] at h
    cases h
    exact mapState_keeps c rfl rfl
  · rw [hn] at h
    cases h

theorem runAct_keeps {ph : Phase} {fam : Family} {a : Act} {c c' : Cyc} (h : runAct ph fam c a = .ok c') :
    DispatchKeeps ph fam c c' := by
  induction a generalizing c c' with
  | andBus v =>
    obtain ⟨x, -, h⟩ := bind_ok h
    obtain ⟨-, rfl⟩ := ite_ok outsidePorts_ne h
    exact andBus_keeps _ _
  | setRsel v =>
    obtain ⟨x, -, h⟩ := bind_ok h
    obtain ⟨⟨-, hfam⟩, rfl⟩ := ite_ok outsidePorts_ne h
    exact ⟨fun _ => rfl, fun _ => rfl, fun hne => absurd hfam hne, fun _ => rfl⟩
  | orNext v =>
    obtain ⟨x, -, h⟩ := bind_ok h
    obtain ⟨-, rfl⟩ := ite_ok outsidePorts_ne h
    exact orNext_keeps _ _
  | writeR i v | loadMar i v =>
    obtain ⟨n, -, h⟩ := bind_ok h
    obtain ⟨x, -, h⟩ := bind_ok h
    cases h
    exact mapState_keeps c rfl rfl
  | writeS b i v =>
    obtain ⟨bn, -, h⟩ := bind_ok h
    obtain ⟨n, -, h⟩ := bind_ok h
    obtain ⟨x, -, h⟩ := bind_ok h
    obtain ⟨-, rfl⟩ := ite_ok outsidePorts_ne h
    exact mapState_keeps c (writeS_wrPend _ _ _ _) (writeS_wrAddr _ _ _ _)
  | setSBank k b =>
    obtain ⟨kn, -, h⟩ := bind_ok h
    obtain ⟨bn, -, h⟩ := bind_ok h
    obtain ⟨-, rfl⟩ := ite_ok outsidePorts_ne h
    exact mapState_keeps c rfl rfl
  | requestURamWrite | requestURamRead =>
    obtain ⟨⟨hlate, -⟩, rfl⟩ := ite_ok outsidePorts_ne h
    exact request_keeps c hlate
  | setPage p =>
    obtain ⟨x, -, h⟩ := bind_ok h
    obtain ⟨-, rfl⟩ := ite_ok outsidePorts_ne h
    exact mapState_keeps c rfl rfl
  | setMagic =>
    obtain ⟨⟨hfam, -⟩, rfl⟩ := ite_ok outsidePorts_ne h
    exact ⟨fun _ => rfl, fun _ => rfl, fun _ => rfl, fun hne => absurd hfam hne⟩
  | writeMem v | device k v | wake v | unwake v =>
    obtain ⟨x, -, h⟩ := bind_ok h
    cases h
    exact mapState_keeps c rfl rfl
  | andReadMem =>
    obtain ⟨-, rfl⟩ := ite_ok outsidePorts_ne h
    exact ⟨fun _ => rfl, fun _ => rfl, fun _ => rfl, fun _ => rfl⟩
  | ask q =>
    obtain ⟨v, rfl | ⟨k, rfl⟩⟩ := runQuery_ok h
    · exact answered_keeps _ _
    · exact (mapState_keeps c rfl rfl).trans (answered_keeps _ _)
  | arbitrate => exact arbitrate_keeps h
  | onlyIf k a ih =>
    obtain ⟨z, -, h⟩ := bind_ok h
    split at h
    · exact ih h
    · cases h
      exact .refl _ _ _
  | outside => cases h

theorem runActs_keeps {ph : Phase} {fam : Family} {acts : List Act} {c c' : Cyc} (h : runActs ph fam acts c = .ok c') :
    DispatchKeeps ph fam c c' := by
  induction acts generalizing c with
  | nil =>
    cases h
    exact .refl _ _ _
  | cons a rest ih =>
    unfold runActs at h
    split at h
    · next h1 => exact (runAct_keeps h1).trans (ih h)
    · cases h

theorem dispatch_keeps {ph : Phase} {fam : Family} {code : Nat} {dflt : Cyc → Except Stop Cyc} {c c' : Cyc}
    (hd : dflt c = .ok c' → DispatchKeeps ph fam c c') (h : dispatch ph fam code dflt c = .ok c') :
    DispatchKeeps ph fam c c' := by
  unfold dispatch at h
  split at h
  · exact runActs_keeps h
  · cases h
    exact .refl _ _ _
  · cases h
  · exact hd h

theorem bsEarlyDefault_keeps {code : BitVec 3} {c c' : Cyc} (h : bsEarlyDefault code c = .ok c') :
    DispatchKeeps .early .bs c c' := by
  unfold bsEarlyDefault at h
  split at h <;> cases h <;> exact ⟨fun _ => rfl, fun _ => rfl, fun _ => rfl, fun _ => rfl⟩

theorem runBs_early_keeps {c c' : Cyc} (h : runBs .early c = .ok c') : DispatchKeeps .early .bs c c' := by
  unfold runBs at h
  split at h
  · cases h
    exact .refl _ _ _
  · exact dispatch_keeps bsEarlyDefault_keeps h

theorem f1EarlyDefault_keeps {code : BitVec 4} {c c' : Cyc} (h : f1EarlyDefault code c = .ok c') :
    DispatchKeeps .early .f1 c c' := by
  unfold f1EarlyDefault at h
  split at h
  · exact arbitrate_keeps h
  · cases h
    exact .refl _ _ _

theorem f1LateDefault_keeps {code : BitVec 4} {c c' : Cyc} (h : f1LateDefault code c = .ok c') :
    DispatchKeeps .late .f1 c c' := by
  unfold f1LateDefault at h
  split at h <;> cases h <;> exact ⟨fun _ => rfl, fun _ => rfl, fun _ => rfl, fun _ => rfl⟩

theorem runF1_keeps {ph : Phase} {c c' : Cyc} (h : runF1 ph c = .ok c') : DispatchKeeps ph .f1 c c' := by
  unfold runF1 at h
  split at h
  · cases h
    exact .refl _ _ _
  · cases ph with
    | early => exact dispatch_keeps f1EarlyDefault_keeps h
    | late => exact dispatch_keeps f1LateDefault_keeps h

theorem runF2_early_keeps {c c' : Cyc} (h : runF2 .early c = .ok c') : DispatchKeeps .early .f2 c c' := by
  unfold runF2 at h
  split at h
  · cases h
    exact .refl _ _ _
  · refine dispatch_keeps (fun h => ?_) h
    cases h
    exact .refl _ _ _

theorem readPerform_keeps {c c' : Cyc} (h : readPerform c = .ok c') : DispatchKeeps .early .f2 c c' := by
  obtain ⟨-, rfl⟩ | ⟨v, -, -, -, rfl⟩ := readPerform_ok h
  · exact .refl _ _ _
  · exact ⟨fun _ => rfl, fun _ => rfl, fun _ => rfl, fun _ => rfl⟩

theorem constantPath_keeps (ph : Phase) (fam : Family) (c : Cyc) : DispatchKeeps ph fam c (constantPath c) := by
  unfold constantPath
  split
  · exact andBus_keeps _ _
  · exact .refl _ _ _

/-- The record of the pending write stands until the write-back (R36, R65). -/
theorem earlyPhase_pendingWrite {d : Microword} {s : State} {c : Cyc} (h : earlyPhase d s = .ok c) :
    c.st.wrPend = s.wrPend ∧ c.st.wrAddr = s.wrAddr := by
  obtain ⟨c0, c1, c2, h0, h1, h2, h3⟩ := earlyPhase_ok h
  have hf2 := ((readPerform_keeps h0).trans (constantPath_keeps _ _ _)).trans (runF2_early_keeps h1)
  have hbs := runBs_early_keeps h2
  have hf1 := runF1_keeps h3
  exact ⟨(hf1.wrPend rfl).trans ((hbs.wrPend rfl).trans (hf2.wrPend rfl)),
    (hf1.wrAddr rfl).trans ((hbs.wrAddr rfl).trans (hf2.wrAddr rfl))⟩

/-! ## The store -/

/-- The store after both phases is that of the write-back of the state before the cycle. -/
theorem phases_store_eq {d : Microword} {s : State} {c c' : Cyc} (he : earlyPhase d s = .ok c)
    (hl : latePhase (aluPhase c) = .ok c') : c'.st.store = (writeBack s (cycleAlu c).alu).store := by
  have early := earlyPhase_frame he
  have hstore : c.st.store = s.store := early.store
  have hcfg : c.st.cfg = s.cfg := early.cfg
  have hm : c.st.m = s.m := early.m
  obtain ⟨hpend, haddr⟩ := earlyPhase_pendingWrite he
  rw [phases_store hl, writeBack_store, writeBack_store, hpend, haddr, hstore, hcfg, hm]

/-- The store after an instruction: as it was, or that of the write-back with the ALU result of its cycle. -/
theorem exec_store {i : Instr} {s u : State} (h : exec i s = .next u) :
    u.store = s.store ∨ ∃ alu, u.store = (writeBack s alu).store := by
  obtain rfl | ⟨f, -, -, rfl⟩ | ⟨c, c', -, -, he, hl, rfl⟩ := exec_next_cases h
  · exact .inl rfl
  · exact .inl rfl
  · exact .inr ⟨_, by rw [nextAddress_store, commit_store, phases_store_eq he hl]⟩

theorem writeBack_of_not_pending {s : State} (h : s.wrPend = false) (v : Word) : writeBack s v = s := by
  simp [writeBack, h]

theorem writeBack_store_in_range {s : State} {b : Nat} (hp : s.wrPend = true)
    (hb : bankInRange s.cfg (ramBank s.wrAddr) = some b) (v : Word) :
    (writeBack s v).store = s.store.write (ramAddr s.cfg b (ramWord s.wrAddr)) ((s.m ++ v) ^^^ s.cfg.invMask) := by
  rw [writeBack_store, hp, hb]

theorem writeBack_store_out_of_range {s : State} (hb : bankInRange s.cfg (ramBank s.wrAddr) = none) (v : Word) :
    (writeBack s v).store = s.store := by
  rw [writeBack_store, hb]
  cases s.wrPend <;> rfl

/-- The write-back reaches no ROM page: the RAM pages lie above them (R50). -/
theorem read_writeBack_rom {s : State} (hs : Memory.wf s.store = true) (v : Word) {a : Nat}
    (ha : a < s.cfg.romPages * 1024) : (writeBack s v).store.read a = s.store.read a := by
  rw [writeBack_store]
  split
  · next b _ _ =>
    have hne : a ≠ ramAddr s.cfg b (ramWord s.wrAddr) := by
      unfold ramAddr pageSize
      omega
    exact Memory.read_write_other _ hs _ hne
  · rfl

/-- Settles O42: without a pending write the write-back is nothing. -/
theorem storeUnchangedWithoutAPendingWrite : Obligations.StoreUnchangedWithoutAPendingWrite := by
  intro i s u hp h a
  obtain hstore | ⟨alu, hstore⟩ := exec_store h
  · rw [hstore]
  · rw [hstore, writeBack_of_not_pending hp]

/-- The end of an iteration is no access to the store, and no change of the configuration. -/
theorem endIteration_store (s : State) : (endIteration s).store = s.store ∧ (endIteration s).cfg = s.cfg := by
  obtain ⟨-, hcfg, hstore, -⟩ :=
    applyEvents_frame s.input.events { s with ticks := s.ticks + 1, inputs := s.inputs.tail }
  exact ⟨hstore, hcfg⟩

/-- Settles O43: only the write-back of an instruction writes the store, and it reaches RAM pages only. -/
theorem romIsNeverWritten : Obligations.RomIsNeverWritten := by
  intro s u hwf h
  obtain rfl | ⟨w, t, -, -, ht, rfl⟩ := step_cases h
  · exact ⟨rfl, fun _ _ => rfl⟩
  · obtain ⟨hstore, hcfg⟩ := endIteration_store t
    obtain ⟨hcfg', -⟩ := execFrame _ s t ht
    refine ⟨by rw [hcfg, hcfg'], fun a ha => ?_⟩
    rw [hstore]
    obtain hsame | ⟨alu, hwrite⟩ := exec_store ht
    · rw [hsame]
    · rw [hwrite, read_writeBack_rom hwf alu ha]

/-- Settles O40: the range test on the wrapped number, and the sentinel of R63. -/
theorem ramBanksOutOfRangeReadTheSentinel : Obligations.RamBanksOutOfRangeReadTheSentinel := by
  intro s bank word half
  refine ⟨by simp [bankInRange], fun h => ?_⟩
  simp only [uRamRead, h]

/-! ## The stops -/

/-- A pending read that stops, stops its instruction: nothing of the cycle comes before it (R67). -/
theorem cycleBody_of_readPerform_err {d : Microword} {s : State} {e : Stop} (h : readPerform (startCycle d s) = .error e) :
    cycleBody d s = .error e := by
  unfold cycleBody earlyPhase
  rw [h]
  rfl

theorem readPerform_romsel {d : Microword} {s : State} (hp : s.rdPend = true) (hr : ramRomsel s.rdAddr = true) :
    readPerform (startCycle d s) = .error (.refused .romReadThroughRamPort) := by
  simp [readPerform, startCycle, hp, hr]

theorem readPerform_unwritten {d : Microword} {s : State} {b : Nat} (hp : s.rdPend = true)
    (hr : ramRomsel s.rdAddr = false) (hb : bankInRange s.cfg (ramBank s.rdAddr) = some b)
    (hread : s.store.read (ramAddr s.cfg b (ramWord s.rdAddr)) = none) :
    readPerform (startCycle d s) = .error (.fault (.unwrittenRam b (ramWord s.rdAddr))) := by
  simp [readPerform, startCycle, uRamRead, hp, hr, hb, hread]

/-- The outcome of a running instruction that does not stall is that of its cycle. -/
theorem exec_of_running {i : Instr} {s : State} (hrun : s.run = .running) (hstall : stalled (instrFields i) s = false) :
    exec i s = cycleOutcome s (cycleBody (instrFields i) s) := by
  simp [exec_eq_microcycle, microcycle, hrun, hstall]

/-- Settles O45: either stop of the pending read is that of the instruction. -/
theorem pendingReadStops : Obligations.PendingReadStops := by
  intro i s hrun hstall hp
  refine ⟨fun hr => ?_, fun b hr hb hread => ?_⟩
  · rw [exec_of_running hrun hstall, cycleBody_of_readPerform_err (readPerform_romsel hp hr), cycleOutcome]
  · rw [exec_of_running hrun hstall, cycleBody_of_readPerform_err (readPerform_unwritten hp hr hb hread), cycleOutcome]

/-- A fault of an instruction is one of its cycle. -/
theorem exec_fault {i : Instr} {s : State} {e : Fault} (h : exec i s = .fault e) :
    cycleBody (instrFields i) s = .error (.fault e) := by
  rw [exec_eq_microcycle] at h
  obtain ⟨-, hm⟩ | ⟨-, -, ⟨t, -, hm⟩ | ⟨f, -, hm⟩ | ⟨e', hb, hm⟩ | ⟨r, -, hm⟩⟩ := microcycle_cases (instrFields i) s <;>
    rw [hm] at h <;> cases h
  exact hb

/-- A refusal of an instruction is one of its cycle. -/
theorem exec_refused {i : Instr} {s : State} {r : Refusal} (h : exec i s = .refused r) :
    cycleBody (instrFields i) s = .error (.refused r) := by
  rw [exec_eq_microcycle] at h
  obtain ⟨-, hm⟩ | ⟨-, -, ⟨t, -, hm⟩ | ⟨f, -, hm⟩ | ⟨e', -, hm⟩ | ⟨r', hb, hm⟩⟩ := microcycle_cases (instrFields i) s <;>
    rw [hm] at h <;> cases h
  exact hb

theorem DispatchStop.ne_fault {s : State} {e : Fault} (h : DispatchStop s (.fault e)) : False := by
  obtain h | h | ⟨fam, code, -, h⟩ := h <;> cases h

theorem DispatchStop.refused_eq {s : State} {r : Refusal} (h : DispatchStop s (.refused r)) :
    r = .unmodelledOperation := by
  obtain h | h | ⟨fam, code, -, h⟩ := h <;> cases h
  rfl

/-- Settles O46: a cycle stops at its pending read, or at a dispatch, which never faults and refuses only an installed
operation. -/
theorem instructionsStopOnlyAsTheRulesSay : Obligations.InstructionsStopOnlyAsTheRulesSay := by
  intro i s
  refine ⟨fun e he => ?fault, fun r hr => ?refusal⟩
  case fault =>
    obtain hread | ⟨hdispatch, -⟩ := cycleBody_err (exec_fault he)
    · obtain ⟨hp, ⟨-, hstop⟩ | ⟨b, hb, hnone, hstop⟩⟩ := readPerform_err hread
      · cases hstop
      · cases hstop
        exact ⟨hp, b, hb, hnone, rfl⟩
    · exact hdispatch.ne_fault.elim
  case refusal =>
    obtain hread | ⟨hdispatch, hplain⟩ := cycleBody_err (exec_refused hr)
    · obtain ⟨hp, ⟨hrom, hstop⟩ | ⟨b, -, -, hstop⟩⟩ := readPerform_err hread
      · cases hstop
        exact .inl ⟨rfl, hp, hrom⟩
      · cases hstop
    · cases hdispatch.refused_eq
      exact .inr ⟨rfl, hplain rfl⟩

/-- The codes of a task-specific slot (R103). -/
theorem taskSpecific_codes {fam : Family} {code : Nat} (h : taskSpecific fam code = true) :
    (fam = .bs ∧ (code = 3 ∨ code = 4)) ∨ (fam ≠ .bs ∧ 8 ≤ code) := by
  cases fam <;> simpa [taskSpecific] using h

/-- Settles O47: an instruction that ends halted took a fatal error from the state it started in, and the only fatal errors of a
cycle are the empty mask and an unfilled slot. -/
theorem fatalErrorsAbandonTheCycle : Obligations.FatalErrorsAbandonTheCycle := by
  intro i s u hrun h hhalt
  obtain rfl | ⟨f, -, hf, rfl⟩ | ⟨c, c', -, -, he, hl, rfl⟩ := exec_next_cases h
  · exact absurd hrun hhalt
  · refine ⟨f, rfl, ?_⟩
    obtain hread | ⟨hstop | hmask | ⟨fam, code, hcode, hunset⟩, -⟩ := cycleBody_err hf
    · obtain ⟨-, ⟨-, hstop⟩ | ⟨b, -, -, hstop⟩⟩ := readPerform_err hread <;> cases hstop
    · cases hstop
    · cases hmask
      exact ⟨rfl, rfl, fun _ => ⟨rfl, rfl⟩, fun h => by simp [emptyMaskFatal] at h⟩
    · cases hunset
      exact ⟨rfl, rfl, fun h => by simp [unsetFatal] at h, fun _ => taskSpecific_codes hcode⟩
  · refine absurd ?_ hhalt
    rw [nextAddress_run, commit_run, (phases_keep he hl).run, hrun]

/-! ## The logic functions -/

/-- Settles O13: the nine rows of the table are the definitions of the nine functions. -/
theorem aluLogicTable : Obligations.AluLogicTable := by
  intro k bus t skip
  exact ⟨rfl, rfl, rfl, rfl, rfl, rfl, rfl, rfl, rfl⟩

end Sys2Proof.Machine
end

section
/-! PROOFS. The words that run to their end (R246): a ready word's dispatches all answer, so both phases do, and what its rows
latch, store or report. -/

namespace Sys2Proof.Machine

/-! ## A ready word's phases -/

/-- What a dispatch of the word `d` in a cycle that started from `s` finds as it was: the word, the configuration, the current
task and the number of S banks. -/
structure InCycle (d : Microword) (s : State) (c : Cyc) : Prop where
  d     : c.d = d
  cfg   : c.st.cfg = s.cfg
  task  : c.st.task = s.task
  sregs : c.st.sregs.length = s.sregs.length

theorem InCycle.start (d : Microword) (s : State) : InCycle d s (startCycle d s) := ⟨rfl, rfl, rfl, rfl⟩

theorem InCycle.of_frame {d : Microword} {s : State} {c c' : Cyc} (h : InCycle d s c) (f : PortFrame c c') :
    InCycle d s c' :=
  ⟨f.d.trans h.d, f.cfg.trans h.cfg, f.task.trans h.task, f.sregs.trans h.sregs⟩

theorem InCycle.aluPhase {d : Microword} {s : State} {c : Cyc} (h : InCycle d s c) : InCycle d s (aluPhase c) :=
  ⟨h.d, (writeBack_cfg _ _).trans h.cfg, (writeBack_task _ _).trans h.task,
    (congrArg List.length (writeBack_sregs _ _)).trans h.sregs⟩

theorem InCycle.slotReady {d : Microword} {s : State} {c : Cyc} (h : InCycle d s c) (ph : Phase) (fam : Family)
    (code : Nat) : slotReady c.st ph fam code = slotReady s ph fam code :=
  slotReady_congr h.cfg h.task ph fam code

/-- In a well-formed state an early dispatch finds what an installed operation needs. -/
theorem InCycle.early {d : Microword} {s : State} {c : Cyc} (h : InCycle d s c) (hs : s.WellFormed) : CycReady .early c where
  alu := fun e => by cases e
  sregs := by rw [h.sregs, h.cfg, hs.sregs]

theorem cycReady_late {d : Microword} {s : State} {c c' : Cyc} (h : InCycle d s c) (hs : s.WellFormed)
    (f : PortFrame (aluPhase c) c') : CycReady .late c' := by
  have hmid : CycReady .late (aluPhase c) :=
    ⟨fun _ => ⟨_, rfl⟩, by rw [h.aluPhase.sregs, h.aluPhase.cfg, hs.sregs]⟩
  exact hmid.of_frame f

theorem runF2_ready {ph : Phase} {d : Microword} {s : State} {c : Cyc} (h : InCycle d s c) (hc : CycReady ph c)
    (hr : f2Ready d s = true) : ∃ c', runF2 ph c = .ok c' := by
  unfold runF2
  split
  · exact ⟨c, rfl⟩
  · next hne =>
    rw [h.d, h.cfg] at hne
    simp only [f2Ready, Bool.or_eq_true, beq_iff_eq, hne, false_or, Bool.and_eq_true] at hr
    obtain ⟨hearly, hlate⟩ := hr
    rw [← h.d] at hearly hlate
    cases ph with
    | early => exact dispatch_ready hc ((h.slotReady _ _ _).trans hearly) ⟨c, rfl⟩
    | late => exact dispatch_ready hc ((h.slotReady _ _ _).trans hlate) (f2LateDefault_ok _ _)

theorem runBs_ready {ph : Phase} {d : Microword} {s : State} {c : Cyc} (h : InCycle d s c) (hc : CycReady ph c)
    (hr : bsReady d s = true) : ∃ c', runBs ph c = .ok c' := by
  unfold runBs
  split
  · exact ⟨c, rfl⟩
  · next hne =>
    rw [h.d, h.cfg, Bool.not_eq_true] at hne
    simp only [bsReady, hne, Bool.false_or, Bool.and_eq_true] at hr
    obtain ⟨hearly, hlate⟩ := hr
    rw [← h.d] at hearly hlate
    cases ph with
    | early => exact dispatch_ready hc ((h.slotReady _ _ _).trans hearly) (bsEarlyDefault_ok _ _)
    | late => exact dispatch_ready hc ((h.slotReady _ _ _).trans hlate) (bsLateDefault_ok _ _)

/-- The default early operation of an F1 value answers, where a TASK word finds a wakeup bit (R202, R272). -/
theorem f1EarlyDefault_ok {code : BitVec 4} {c : Cyc} (h : code = 2 → c.st.wakeup ≠ 0) :
    ∃ c', f1EarlyDefault code c = .ok c' := by
  unfold f1EarlyDefault
  split
  · next hcode =>
    have hwake := h (BitVec.eq_of_toNat_eq hcode)
    obtain ⟨j, -, hj⟩ | ⟨hnone, -⟩ := arbitrate_cases c
    · exact ⟨_, hj⟩
    · exact absurd ((highestWakeup_eq_none _).mp hnone) hwake
  · exact ⟨c, rfl⟩

theorem runF1_ready {ph : Phase} {d : Microword} {s : State} {c : Cyc} (h : InCycle d s c) (hc : CycReady ph c)
    (hr : f1Ready d s = true) (hw : ph = .early → s.wakeup ≠ 0 → c.st.wakeup ≠ 0) : ∃ c', runF1 ph c = .ok c' := by
  unfold runF1
  split
  · exact ⟨c, rfl⟩
  · next hne =>
    rw [h.d, h.cfg] at hne
    simp only [f1Ready, Bool.or_eq_true, beq_iff_eq, hne, false_or, Bool.and_eq_true, bne_iff_ne, ne_eq] at hr
    obtain ⟨⟨hearly, hlate⟩, hwake⟩ := hr
    rw [← h.d] at hearly hlate hwake
    cases ph with
    | early =>
      refine dispatch_ready hc ((h.slotReady _ _ _).trans hearly) (f1EarlyDefault_ok fun htask => hw rfl ?_)
      exact hwake.resolve_left (fun hne => hne htask)
    | late => exact dispatch_ready hc ((h.slotReady _ _ _).trans hlate) (f1LateDefault_ok _ _)

/-! ## The wakeup mask on the way to the arbitration -/

theorem readPerform_wakeup {c c' : Cyc} (h : readPerform c = .ok c') : c'.st.wakeup = c.st.wakeup := by
  obtain ⟨-, rfl⟩ | ⟨v, -, -, -, rfl⟩ := readPerform_ok h <;> rfl

theorem constantPath_wakeup (c : Cyc) : (constantPath c).st.wakeup = c.st.wakeup := by
  unfold constantPath
  split <;> rfl

theorem runF2_early_wakeup {d : Microword} {s : State} {c c' : Cyc} (hc : InCycle d s c) (hr : f2Ready d s = true)
    (h : runF2 .early c = .ok c') (hw : c.st.wakeup ≠ 0) : c'.st.wakeup ≠ 0 := by
  unfold runF2 at h
  split at h
  · cases h
    exact hw
  · next hne =>
    rw [hc.d, hc.cfg] at hne
    simp only [f2Ready, Bool.or_eq_true, beq_iff_eq, hne, false_or, Bool.and_eq_true] at hr
    obtain ⟨hearly, -⟩ := hr
    rw [← hc.d] at hearly
    refine dispatch_early_wakeup ((hc.slotReady _ _ _).trans hearly) h (fun h => ?_) hw
    cases h
    exact hw

theorem runBs_early_wakeup {d : Microword} {s : State} {c c' : Cyc} (hc : InCycle d s c) (hr : bsReady d s = true)
    (h : runBs .early c = .ok c') (hw : c.st.wakeup ≠ 0) : c'.st.wakeup ≠ 0 := by
  unfold runBs at h
  split at h
  · cases h
    exact hw
  · next hne =>
    rw [hc.d, hc.cfg, Bool.not_eq_true] at hne
    simp only [bsReady, hne, Bool.false_or, Bool.and_eq_true] at hr
    obtain ⟨hearly, -⟩ := hr
    rw [← hc.d] at hearly
    exact dispatch_early_wakeup ((hc.slotReady _ _ _).trans hearly) h (fun h => by rw [bsEarlyDefault_wakeup h]; exact hw) hw

/-! ## Completion -/

/-- The conditions that `ready` joins. -/
theorem ready_iff (d : Microword) (s : State) :
    ready d s = true ↔ s.run = .running ∧ stalled d s = false ∧ readReady s = true ∧ f2Ready d s = true ∧
      bsReady d s = true ∧ f1Ready d s = true := by
  simp [ready, and_assoc]

/-- The cycle of a ready F2 field after its early operation. -/
theorem earlyF2_ready {d : Microword} {s : State} (hs : s.WellFormed) (hread : readReady s = true)
    (hf2 : f2Ready d s = true) :
    ∃ c0 c1, readPerform (startCycle d s) = .ok c0 ∧ runF2 .early (constantPath c0) = .ok c1 ∧ InCycle d s c1 ∧
      (s.wakeup ≠ 0 → c1.st.wakeup ≠ 0) := by
  obtain ⟨c0, h0⟩ := readPerform_ready (d := d) hread
  have i0 := ((InCycle.start d s).of_frame (readPerform_frame h0)).of_frame (constantPath_frame c0)
  obtain ⟨c1, h1⟩ := runF2_ready i0 (i0.early hs) hf2
  refine ⟨c0, c1, h0, h1, i0.of_frame (runF2_frame h1), fun hw => runF2_early_wakeup i0 hf2 h1 ?_⟩
  rwa [constantPath_wakeup, readPerform_wakeup h0]

/-- The cycle of a ready F2 and a ready BS field before its F1 step. -/
theorem earlyBs_ready {d : Microword} {s : State} (hs : s.WellFormed) (hread : readReady s = true)
    (hf2 : f2Ready d s = true) (hbs : bsReady d s = true) :
    ∃ c, beforeEarlyF1 d s = .ok c ∧ InCycle d s c ∧ (s.wakeup ≠ 0 → c.st.wakeup ≠ 0) := by
  obtain ⟨c0, c1, h0, h1, i1, hw1⟩ := earlyF2_ready hs hread hf2
  obtain ⟨c2, h2⟩ := runBs_ready i1 (i1.early hs) hbs
  exact ⟨c2, andThen_ok h0 (andThen_ok h1 h2), i1.of_frame (runBs_frame h2),
    fun hw => runBs_early_wakeup i1 hbs h2 (hw1 hw)⟩

/-- The early phase is its part before the F1 step, and that step. -/
theorem earlyPhase_eq (d : Microword) (s : State) : earlyPhase d s = beforeEarlyF1 d s >>= runF1 .early := by
  unfold earlyPhase beforeEarlyF1
  simp only [bind_assoc]

theorem earlyPhase_ready {d : Microword} {s : State} (hs : s.WellFormed) (h : ready d s = true) :
    ∃ c, earlyPhase d s = .ok c ∧ InCycle d s c := by
  obtain ⟨-, -, hread, hf2, hbs, hf1⟩ := (ready_iff d s).mp h
  obtain ⟨c2, h2, i2, hw2⟩ := earlyBs_ready hs hread hf2 hbs
  obtain ⟨c, hc⟩ := runF1_ready i2 (i2.early hs) hf1 (fun _ => hw2)
  exact ⟨c, by rw [earlyPhase_eq]; exact andThen_ok h2 hc, i2.of_frame (runF1_frame hc)⟩

theorem latePhase_ready {d : Microword} {s : State} {c : Cyc} (hs : s.WellFormed) (h : ready d s = true)
    (hc : InCycle d s c) : ∃ c', latePhase (aluPhase c) = .ok c' := by
  obtain ⟨-, -, -, hf2, hbs, hf1⟩ := (ready_iff d s).mp h
  obtain ⟨c1, h1⟩ := runF1_ready hc.aluPhase (cycReady_late hc hs (.refl _)) hf1 (fun e => by cases e)
  have f1 := runF1_frame h1
  obtain ⟨c2, h2⟩ := runF2_ready (hc.aluPhase.of_frame f1) (cycReady_late hc hs f1) hf2
  have f2 := f1.trans (runF2_frame h2)
  obtain ⟨c', h3⟩ := runBs_ready (hc.aluPhase.of_frame f2) (cycReady_late hc hs f2) hbs
  exact ⟨c', andThen_ok h1 (andThen_ok h2 h3)⟩

/-- The state at the end of a whole cycle: the commit and step 10 after the late phase (R246). -/
def cycleEnd (d : Microword) (c c' : Cyc) : State := nextAddress d c'.nmod (commit d (cycleAlu c) c.bus c'.st)

theorem exec_of_phases {i : Instr} {s : State} {c c' : Cyc} (hrun : s.run = .running)
    (hstall : stalled (instrFields i) s = false) (he : earlyPhase (instrFields i) s = .ok c)
    (hl : latePhase (aluPhase c) = .ok c') : exec i s = .next (cycleEnd (instrFields i) c c') := by
  rw [exec_eq_microcycle]
  exact microcycle_of_phases hrun hstall he hl

theorem cycleEnd_run {d : Microword} {s : State} {c c' : Cyc} (hrun : s.run = .running) (he : earlyPhase d s = .ok c)
    (hl : latePhase (aluPhase c) = .ok c') : (cycleEnd d c c').run = .running := by
  rw [cycleEnd, nextAddress_run, commit_run, (phases_keep he hl).run, hrun]

/-- Settles O11: each dispatch of a ready word answers, in the order of the phases. -/
theorem readyWordsComplete : Obligations.ReadyWordsComplete := by
  intro i s hs h
  obtain ⟨hrun, hstall, -⟩ := (ready_iff _ _).mp h
  obtain ⟨c, he, hc⟩ := earlyPhase_ready hs h
  obtain ⟨c', hl⟩ := latePhase_ready hs h hc
  exact ⟨c, c', he, hl, (phases_keep he hl).run.trans hrun, exec_of_phases hrun hstall he hl⟩

/-- An instruction completes with what holds after every pair of phases that its ready word can run. -/
theorem completes_of_phases {i : Instr} {s : State} {P : Cyc → State → Prop}
    (h : s.WellFormed → ready (instrFields i) s = true → ∀ c c', earlyPhase (instrFields i) s = .ok c →
      latePhase (aluPhase c) = .ok c' → P c (cycleEnd (instrFields i) c c')) : Completes i s P := by
  intro hs hready
  obtain ⟨c, c', he, hl, hrun, hexec⟩ := readyWordsComplete i s hs hready
  obtain ⟨hrun', -⟩ := (ready_iff _ _).mp hready
  exact ⟨c, _, he, hexec, cycleEnd_run hrun' he hl, h hs hready c c' he hl⟩

/-! ## The latches of the ALU rows -/

/-- The ALU of a cycle reads the bus after the early phase, and T and the skip input as they were at its start (R121). -/
theorem cycleAlu_eq {d : Microword} {s : State} {c : Cyc} (he : earlyPhase d s = .ok c) :
    cycleAlu c = aluFn s.cfg.subCarry d.aluf c.bus s.t s.input.skip := by
  have f := earlyPhase_frame he
  have hcfg : c.st.cfg = s.cfg := f.cfg
  have hd : c.d = d := f.d
  have ht : c.st.t = s.t := f.t
  have hinput : c.st.input = s.input := by
    simp only [State.input, f.inputs, f.ticks, startCycle]
  rw [cycleAlu, hcfg, hd, ht, hinput]

/-- What a whole cycle leaves in the latches. -/
theorem cycleEnd_latches {d : Microword} {s : State} {c c' : Cyc} (he : earlyPhase d s = .ok c)
    (hl : latePhase (aluPhase c) = .ok c') :
    Latches d.loadt d.loadl s (cycleEnd d c c') (cycleAlu c).alu (latchedCarry (cycleAlu c)) (tSource (cycleAlu c) c.bus) := by
  have keep := phases_keep he hl
  constructor
  case l => rw [cycleEnd, nextAddress_l, commit_l, keep.l]
  case laluc0 => rw [cycleEnd, nextAddress_laluc0, commit_laluc0, keep.laluc0]
  case t => rw [cycleEnd, nextAddress_t, commit_t, keep.t]
  case m => rw [cycleEnd, nextAddress_m, commit_m, keep.cfg, keep.task, keep.m]

/-- A row completes and latches what its ALU function gives. -/
theorem completes_latches {i : Instr} {s : State} (out : Word → AluOut)
    (hout : ∀ bus, aluFn s.cfg.subCarry (instrFields i).aluf bus s.t s.input.skip = out bus) :
    Completes i s (fun c u => Latches (instrFields i).loadt (instrFields i).loadl s u (out c.bus).alu
      (latchedCarry (out c.bus)) (tSource (out c.bus) c.bus)) := by
  refine completes_of_phases fun _ _ c c' he hl => ?_
  have h := cycleEnd_latches he hl
  rwa [cycleAlu_eq he, hout] at h

/-- Settles O15: the logic functions latch their result with carry 0, their class not being arithmetic (R165). -/
theorem logicRowsLatch : Obligations.LogicRowsLatch := by
  intro rsel bs f1 f2 lt ll next s
  exact ⟨completes_latches (fun bus => logicOut bus .alu) fun _ => rfl,
    completes_latches (fun _ => logicOut s.t .bus) fun _ => rfl,
    completes_latches (fun bus => logicOut (bus ||| s.t) .alu) fun _ => rfl,
    completes_latches (fun bus => logicOut (bus &&& s.t) .bus) fun _ => rfl,
    completes_latches (fun bus => logicOut (bus ^^^ s.t) .bus) fun _ => rfl,
    completes_latches (fun bus => logicOut (bus &&& s.t) .alu) fun _ => rfl,
    completes_latches (fun bus => logicOut (bus &&& ~~~s.t) .bus) fun _ => rfl⟩

/-- Settles O16: the adding functions by their equations (O14). -/
theorem addingRowsLatch : Obligations.AddingRowsLatch := by
  intro rsel bs f1 f2 lt ll next s
  exact ⟨completes_latches (fun bus => ⟨bus + 1, decide (65536 ≤ bus.toNat + 1), .alu, true⟩) aluFnBusPlus1_eq,
    completes_latches (fun bus => ⟨bus + s.t, decide (65536 ≤ bus.toNat + s.t.toNat), .bus, true⟩)
      fun bus => aluFnBusPlusT_eq bus s.t,
    completes_latches (fun bus => ⟨bus + s.t + 1, decide (65536 ≤ bus.toNat + s.t.toNat + 1), .alu, true⟩)
      fun bus => aluFnBusPlusTPlus1_eq bus s.t,
    completes_latches
      (fun bus => ⟨bus + bitWord s.input.skip, decide (65536 ≤ bus.toNat + s.input.skip.toNat), .alu, true⟩)
      fun bus => aluFnBusPlusSkip_eq bus s.input.skip⟩

/-- Settles O17: the subtracting functions by their equations (O14). -/
theorem subtractingRowsLatch : Obligations.SubtractingRowsLatch := by
  intro rsel bs f1 f2 lt ll next s
  exact ⟨completes_latches (fun bus => ⟨bus - 1, subCarry s.cfg.subCarry (decide (1 ≤ bus.toNat)), .alu, true⟩)
      fun bus => aluFnBusMinus1_eq s.cfg.subCarry bus,
    completes_latches
      (fun bus => ⟨bus - s.t, subCarry s.cfg.subCarry (decide (s.t.toNat ≤ bus.toNat)), .bus, true⟩)
      fun bus => aluFnBusMinusT_eq s.cfg.subCarry bus s.t,
    completes_latches
      (fun bus => ⟨bus - s.t - 1, subCarry s.cfg.subCarry (decide (s.t.toNat < bus.toNat)), .bus, true⟩)
      fun bus => aluFnBusMinusTMinus1_eq s.cfg.subCarry bus s.t⟩

/-- Settles O18: the undefined functions have the arithmetic class, so their carry 1 is latched (R136, R137). -/
theorem undefinedFunctionRowsLatch : Obligations.UndefinedFunctionRowsLatch := by
  intro rsel bs f1 f2 lt ll next s
  exact ⟨completes_latches (fun _ => aluFnUndef14) fun _ => rfl, completes_latches (fun _ => aluFnUndef15) fun _ => rfl⟩

/-! ## The load flags and the pending write -/

/-- S register 0 of the task's own bank after the L load of a ram-related task (R166). -/
theorem cycleEnd_readS_own {d : Microword} {s : State} {c c' : Cyc} (hs : s.WellFormed) (he : earlyPhase d s = .ok c)
    (hl : latePhase (aluPhase c) = .ok c') (hload : d.loadl = true) (hram : ramRelated s.cfg s.task = true) :
    readS (cycleEnd d c c') (at16 (cycleEnd d c c').sbank s.task) 0 = some (cycleAlu c).alu := by
  have keep := phases_keep he hl
  rw [cycleEnd, readS_congr (nextAddress_sregs _ _ _), readS_commit _ _ _ (phases_keep_sbank_lt hs he hl _), keep.cfg,
    keep.task, nextAddress_sbank, commit_sbank]
  simp [hload, hram]

/-- Settles O20: the latches of the whole cycle, with the row's own flag set. -/
theorem loadFlagRowsCommit : Obligations.LoadFlagRowsCommit := by
  intro rsel aluf bs f1 f2 lt ll next s
  refine ⟨completes_of_phases fun _ _ c c' he hl => ?loadt, completes_of_phases fun hs _ c c' he hl => ?loadl⟩
  case loadt => exact (cycleEnd_latches he hl).t.trans (tSource_eq _ _)
  case loadl =>
    have latches := cycleEnd_latches he hl
    refine ⟨latches.l, latches.laluc0.trans (latchedCarry_eq _), fun hram => ⟨?m, cycleEnd_readS_own hs he hl rfl hram⟩,
      fun hram => ?keep⟩
    case m => exact latches.m.trans (by simp [instrFields, hram])
    case keep => exact latches.m.trans (by simp [hram])

theorem cycleEnd_store {d : Microword} {s : State} {c c' : Cyc} (he : earlyPhase d s = .ok c)
    (hl : latePhase (aluPhase c) = .ok c') : (cycleEnd d c c').store = (writeBack s (cycleAlu c).alu).store := by
  rw [cycleEnd, nextAddress_store, commit_store, phases_store_eq he hl]

theorem cycleEnd_cfg {d : Microword} {s : State} {c c' : Cyc} (he : earlyPhase d s = .ok c)
    (hl : latePhase (aluPhase c) = .ok c') : (cycleEnd d c c').cfg = s.cfg := by
  rw [cycleEnd, nextAddress_cfg, commit_cfg, (phases_keep he hl).cfg]

/-- A state with the store of the write-back fetches the written word at its address (R65, R68). -/
theorem uFetch_of_writeBack {s u : State} {b : Nat} {v : Word} (hwf : Memory.wf s.store = true) (hp : s.wrPend = true)
    (hb : bankInRange s.cfg (ramBank s.wrAddr) = some b) (hcfg : u.cfg = s.cfg)
    (hstore : u.store = (writeBack s v).store) : uFetch u (ramAddr s.cfg b (ramWord s.wrAddr)) = some (s.m ++ v) := by
  rw [uFetch_eq_some, hstore, hcfg, writeBack_store_in_range hp hb, Memory.read_write_same _ hwf]

/-- Settles O41: the store after a whole cycle is that of the write-back. -/
theorem pendingWriteIsStored : Obligations.PendingWriteIsStored := by
  intro i s hp
  refine completes_of_phases fun hs _ c c' he hl => ?_
  have hstore := cycleEnd_store he hl
  refine ⟨fun b hb => ⟨uFetch_of_writeBack hs.store hp hb (cycleEnd_cfg he hl) hstore, fun a ha => ?other⟩, fun hb a => ?outside⟩
  case other =>
    rw [hstore, writeBack_store_in_range hp hb]
    exact Memory.read_write_other _ hs.store _ ha
  case outside => rw [hstore, writeBack_store_out_of_range hb]

/-- Settles O44: the step runs the word that was fetched before the store, and the end of the iteration leaves the store. -/
theorem nextFetchSeesTheWrittenWord : Obligations.NextFetchSeesTheWrittenWord := by
  intro s w b hs hp hb hfetch hready
  obtain ⟨hrun, hstall, -⟩ := (ready_iff _ _).mp hready
  obtain ⟨c, he, hc⟩ := earlyPhase_ready hs hready
  obtain ⟨c', hl⟩ := latePhase_ready hs hready hc
  have hexec : exec (decode w) s = .next (cycleEnd (wordFields w) c c') := by
    rw [exec_eq_microcycle, instrFields_decode]
    exact microcycle_of_phases hrun hstall he hl
  obtain ⟨hstore, hcfg⟩ := endIteration_store (cycleEnd (wordFields w) c c')
  refine ⟨c, endIteration (cycleEnd (wordFields w) c c'), he, by rw [step_of_fetch hrun hfetch, hexec, finish], ?_⟩
  exact uFetch_of_writeBack hs.store hp hb (hcfg.trans (cycleEnd_cfg he hl)) (hstore.trans (cycleEnd_store he hl))

end Sys2Proof.Machine
end

section
/-! PROOFS. The cycle as the composition of what its six dispatches do (R249, R251): each dispatch has its effect on a cycle as a
function, and the effects of the default entries together give the rules field by field. -/

namespace Sys2Proof.Machine

/-! ## The effects of the default entries -/

/-- More calls recorded, newest first. -/
def addCalls (ks : List Call) (s : State) : State := { s with calls := ks ++ s.calls }

/-- The cycle before its first dispatch: the pending read performed, the constant on the bus (R67, R153). -/
def onBus (d : Microword) (s : State) : Cyc :=
  { startCycle d s with
    bus := readValue s &&& (if constSel s.cfg d then constWord s.cfg (constIndex d.rsel d.bs) else 0xFFFF)
    st := { s with rdPend := false } }

/-- Early BS: what the source drives, with the register select as the early F2 operation has left it (R180 to R187, R236). -/
def bsEarlyEffect (c : Cyc) : Cyc :=
  { c with
    bus := c.bus &&& (if constSel c.st.cfg c.d then 0xFFFF else sourceValue { c.d with rsel := c.rsel } c.st)
    st := addCalls (plainEarlyCalls c.d c.st) c.st }

/-- Early F1: a TASK word requests the highest wakeup bit's task (R202). -/
def f1EarlyEffect (c : Cyc) : Cyc :=
  { c with st := { c.st with
      reqTask := if c.d.f1 = 2 ∧ c.d.f1 ≠ c.st.cfg.f1Const then (highestWakeup c.st.wakeup).getD c.st.reqTask
        else c.st.reqTask } }

/-- Late F1: LOADMAR's call (R201). -/
def f1LateEffect (c : Cyc) : Cyc :=
  { c with st := addCalls (if c.d.f1 = 1 ∧ c.d.f1 ≠ c.st.cfg.f1Const then [.loadMar c.rsel c.aluWord] else []) c.st }

/-- The branch bits that the default F2 operation injects (R220 to R227). -/
def f2Bits (c : Cyc) : MicroAddr :=
  if c.d.f2 = c.st.cfg.f2Const then 0
  else if c.d.f2 = 1 then (if c.bus = 0 then 1 else 0)
  else if c.d.f2 = 2 then (if c.shifter.getLsbD 15 then 1 else 0)
  else if c.d.f2 = 3 then (if c.shifter = 0 then 1 else 0)
  else if c.d.f2 = 4 then c.bus.extractLsb' 0 10
  else if c.d.f2 = 5 then (if c.st.laluc0 then 1 else 0)
  else 0

/-- Late F2: the branch bits, and LOADMD's call (R226). -/
def f2LateEffect (c : Cyc) : Cyc :=
  { c with
    nmod := c.nmod ||| f2Bits c
    st := addCalls (if c.d.f2 = 6 ∧ c.d.f2 ≠ c.st.cfg.f2Const then [.writeMem c.bus] else []) c.st }

/-- Late BS: LOADR's write of the shifter output (R181). -/
def bsLateEffect (c : Cyc) : Cyc :=
  { c with st := { c.st with
      r := if c.d.bs = 1 ∧ constSel c.st.cfg c.d = false then set32 c.st.r c.rsel (quirkValue c.st.cfg c.rsel c.shifter)
        else c.st.r } }

/-! ## Which dispatches run them -/

/-- The F2 dispatch of a phase runs nothing (the constant value) or the default entry. -/
def F2Default (d : Microword) (s : State) (ph : Phase) : Prop :=
  d.f2 = s.cfg.f2Const ∨ resolve s.cfg ph s.task .f2 d.f2.toNat = .byDefault

/-- The F1 dispatch of a phase runs nothing (the constant value) or the default entry. -/
def F1Default (d : Microword) (s : State) (ph : Phase) : Prop :=
  d.f1 = s.cfg.f1Const ∨ resolve s.cfg ph s.task .f1 d.f1.toNat = .byDefault

/-- The BS dispatch of a phase runs nothing (the constant path) or the default entry. -/
def BsDefault (d : Microword) (s : State) (ph : Phase) : Prop :=
  constSel s.cfg d = true ∨ resolve s.cfg ph s.task .bs d.bs.toNat = .byDefault

theorem f2Default_of_ready {d : Microword} {s : State} (hr : f2Ready d s = true)
    (hp : d.f2 = s.cfg.f2Const ∨ plainSlot s .f2 d.f2.toNat = true) (ph : Phase) : F2Default d s ph := by
  obtain hconst | hp := hp
  · exact .inl hconst
  · simp only [f2Ready, Bool.or_eq_true, beq_iff_eq, Bool.and_eq_true] at hr
    refine hr.imp_right fun ⟨hearly, hlate⟩ => ?_
    cases ph with
    | early => exact resolve_plain hearly hp
    | late => exact resolve_plain hlate hp

theorem f1Default_of_ready {d : Microword} {s : State} (hr : f1Ready d s = true)
    (hp : d.f1 = s.cfg.f1Const ∨ plainSlot s .f1 d.f1.toNat = true) (ph : Phase) : F1Default d s ph := by
  obtain hconst | hp := hp
  · exact .inl hconst
  · simp only [f1Ready, Bool.or_eq_true, beq_iff_eq, Bool.and_eq_true] at hr
    refine hr.imp_right fun ⟨⟨hearly, hlate⟩, _⟩ => ?_
    cases ph with
    | early => exact resolve_plain hearly hp
    | late => exact resolve_plain hlate hp

theorem bsDefault_of_ready {d : Microword} {s : State} (hr : bsReady d s = true)
    (hp : constSel s.cfg d = true ∨ plainSlot s .bs d.bs.toNat = true) (ph : Phase) : BsDefault d s ph := by
  obtain hconst | hp := hp
  · exact .inl hconst
  · simp only [bsReady, Bool.or_eq_true, Bool.and_eq_true] at hr
    refine hr.imp_right fun ⟨hearly, hlate⟩ => ?_
    cases ph with
    | early => exact resolve_plain hearly hp
    | late => exact resolve_plain hlate hp

/-- The conditions that `plain` joins. -/
theorem plain_iff (d : Microword) (s : State) :
    plain d s = true ↔ (d.f2 = s.cfg.f2Const ∨ plainSlot s .f2 d.f2.toNat = true) ∧
      (constSel s.cfg d = true ∨ plainSlot s .bs d.bs.toNat = true) ∧
        (d.f1 = s.cfg.f1Const ∨ plainSlot s .f1 d.f1.toNat = true) := by
  simp [plain, and_assoc]

/-! ## Each default operation is its effect -/

theorem addCalls_nil (s : State) : addCalls [] s = s := rfl

/-- All ones are the bus on which nothing has been put (R150). -/
@[simp] theorem allOnes_and (v : Word) : 65535#16 &&& v = v := BitVec.allOnes_and

@[simp] theorem and_allOnes (v : Word) : v &&& 65535#16 = v := BitVec.and_allOnes

theorem readPerform_eq {d : Microword} {s : State} (h : readReady s = true) :
    ∃ c, readPerform (startCycle d s) = .ok c ∧ constantPath c = onBus d s := by
  obtain ⟨c, hc⟩ := readPerform_ready (d := d) h
  refine ⟨c, hc, ?_⟩
  obtain ⟨hp, rfl⟩ | ⟨v, hp, -, hv, rfl⟩ := readPerform_ok hc
  · have hnone : s.rdPend = false := hp
    have hst : { s with rdPend := false } = s := by rw [← hnone]
    unfold constantPath onBus readValue
    rw [hst, hnone]
    cases hsel : constSel s.cfg d <;> simp [startCycle, andBus, hsel]
  · have hpend : s.rdPend = true := hp
    have hread : uRamRead s (ramBank s.rdAddr) (ramWord s.rdAddr) (ramHalf s.rdAddr) = .ok v := hv
    have hvalue : readValue s = v := by simp [readValue, hpend, hread]
    unfold constantPath onBus
    rw [hvalue]
    cases hsel : constSel s.cfg d <;> simp [startCycle, andBus, mapState, hsel]

theorem runF2_early_default {d : Microword} {s : State} {c : Cyc} (hc : InCycle d s c) (h : F2Default d s .early) :
    runF2 .early c = .ok c := by
  unfold runF2
  rw [hc.d, hc.cfg]
  split
  · rfl
  · next hne => exact dispatch_default (by rw [hc.cfg, hc.task]; exact h.resolve_left hne)

/-- The default late operation of an F2 value that is not the constant value. -/
theorem f2LateDefault_eq {c : Cyc} (hne : c.d.f2 ≠ c.st.cfg.f2Const) : f2LateDefault c.d.f2 c = .ok (f2LateEffect c) := by
  unfold f2LateEffect f2Bits
  rw [if_neg hne]
  simp only [hne, ne_eq, not_false_eq_true, and_true]
  obtain ⟨k, hk, hcode⟩ := exists_ofNat c.d.f2
  rw [hcode]
  interval_cases k <;>
    simp [f2LateDefault, buseq0Late, shlt0Late, sheq0Late, busLate, alucyLate, loadmdLate, branchIf, orNext, mapState, logCall,
      addCalls]
  all_goals split <;> simp

theorem runF2_late_default {d : Microword} {s : State} {c : Cyc} (hc : InCycle d s c) (h : F2Default d s .late) :
    runF2 .late c = .ok (f2LateEffect c) := by
  unfold runF2
  split
  · next heq => simp [f2LateEffect, f2Bits, heq, addCalls]
  · next hne =>
    rw [← f2LateDefault_eq hne]
    rw [hc.d, hc.cfg] at hne
    exact dispatch_default (by rw [hc.cfg, hc.task, hc.d]; exact h.resolve_left hne)

theorem f1LateDefault_eq {c : Cyc} (hne : c.d.f1 ≠ c.st.cfg.f1Const) : f1LateDefault c.d.f1 c = .ok (f1LateEffect c) := by
  unfold f1LateDefault f1LateEffect
  split
  · next hcode =>
    have h1 : c.d.f1 = 1 := BitVec.eq_of_toNat_eq hcode
    rw [if_pos ⟨h1, hne⟩]
    rfl
  · next hcode =>
    have h1 : c.d.f1 ≠ 1 := fun h => hcode (by rw [h]; rfl)
    rw [if_neg (fun h => h1 h.1), addCalls_nil]

theorem runF1_late_default {d : Microword} {s : State} {c : Cyc} (hc : InCycle d s c) (h : F1Default d s .late) :
    runF1 .late c = .ok (f1LateEffect c) := by
  unfold runF1
  split
  · next heq => simp [f1LateEffect, heq, addCalls]
  · next hne =>
    rw [← f1LateDefault_eq hne]
    rw [hc.d, hc.cfg] at hne
    exact dispatch_default (by rw [hc.cfg, hc.task, hc.d]; exact h.resolve_left hne)

theorem f1EarlyDefault_eq {c : Cyc} (hne : c.d.f1 ≠ c.st.cfg.f1Const) (hw : c.d.f1 = 2 → c.st.wakeup ≠ 0) :
    f1EarlyDefault c.d.f1 c = .ok (f1EarlyEffect c) := by
  unfold f1EarlyDefault f1EarlyEffect
  split
  · next hcode =>
    have h2 : c.d.f1 = 2 := BitVec.eq_of_toNat_eq hcode
    obtain ⟨j, hj, harb⟩ | ⟨hnone, -⟩ := arbitrate_cases c
    · rw [harb, hj, if_pos ⟨h2, hne⟩]
      rfl
    · exact absurd ((highestWakeup_eq_none _).mp hnone) (hw h2)
  · next hcode =>
    have h2 : c.d.f1 ≠ 2 := fun h => hcode (by rw [h]; rfl)
    rw [if_neg (fun h => h2 h.1)]

theorem runF1_early_default {d : Microword} {s : State} {c : Cyc} (hc : InCycle d s c) (h : F1Default d s .early)
    (hw : d.f1 = 2 → d.f1 ≠ s.cfg.f1Const → c.st.wakeup ≠ 0) : runF1 .early c = .ok (f1EarlyEffect c) := by
  unfold runF1
  split
  · next heq => simp [f1EarlyEffect, heq]
  · next hne =>
    have hne' := hne
    rw [hc.d, hc.cfg] at hne'
    rw [← f1EarlyDefault_eq hne (fun h2 => hw (by rw [← hc.d, h2]) hne')]
    exact dispatch_default (by rw [hc.cfg, hc.task, hc.d]; exact h.resolve_left hne')

theorem bsEarlyDefault_eq {c : Cyc} (hne : constSel c.st.cfg c.d = false) :
    bsEarlyDefault c.d.bs c = .ok (bsEarlyEffect c) := by
  unfold bsEarlyEffect plainEarlyCalls sourceValue
  rw [hne]
  obtain ⟨k, hk, hcode⟩ := exists_ofNat c.d.bs
  rw [hcode]
  interval_cases k <;>
    simp [bsEarlyDefault, readrEarly, loadrEarly, readmdEarly, mouseEarly, dispEarly, andBus, mapState, logCall, addCalls]

theorem runBs_early_default {d : Microword} {s : State} {c : Cyc} (hc : InCycle d s c) (h : BsDefault d s .early) :
    runBs .early c = .ok (bsEarlyEffect c) := by
  unfold runBs
  split
  · next heq => simp [bsEarlyEffect, plainEarlyCalls, heq, addCalls]
  · next hne =>
    rw [← bsEarlyDefault_eq (by simpa using hne)]
    rw [hc.d, hc.cfg] at hne
    exact dispatch_default (by rw [hc.cfg, hc.task, hc.d]; exact h.resolve_left hne)

theorem bsLateDefault_eq {c : Cyc} (hne : constSel c.st.cfg c.d = false) :
    bsLateDefault c.d.bs c = .ok (bsLateEffect c) := by
  unfold bsLateDefault bsLateEffect
  split
  · next hcode =>
    have h1 : c.d.bs = 1 := BitVec.eq_of_toNat_eq hcode
    rw [if_pos ⟨h1, hne⟩]
    rfl
  · next hcode =>
    have h1 : c.d.bs ≠ 1 := fun h => hcode (by rw [h]; rfl)
    rw [if_neg (fun h => h1 h.1)]

theorem runBs_late_default {d : Microword} {s : State} {c : Cyc} (hc : InCycle d s c) (h : BsDefault d s .late) :
    runBs .late c = .ok (bsLateEffect c) := by
  unfold runBs
  split
  · next heq => simp [bsLateEffect, heq]
  · next hne =>
    rw [← bsLateDefault_eq (by simpa using hne)]
    rw [hc.d, hc.cfg] at hne
    exact dispatch_default (by rw [hc.cfg, hc.task, hc.d]; exact h.resolve_left hne)

/-! ## A cycle from the effects of its dispatches -/

/-- What each of the six dispatches of a word does to a cycle. -/
structure Effects where
  f2Early : Cyc → Cyc
  bsEarly : Cyc → Cyc
  f1Early : Cyc → Cyc
  f1Late  : Cyc → Cyc
  f2Late  : Cyc → Cyc
  bsLate  : Cyc → Cyc

/-- The effects of the default entries. -/
def defaultEffects : Effects := ⟨id, bsEarlyEffect, f1EarlyEffect, f1LateEffect, f2LateEffect, bsLateEffect⟩

/-- The cycle after the early phase (R249). -/
def Effects.early (E : Effects) (d : Microword) (s : State) : Cyc := E.f1Early (E.bsEarly (E.f2Early (onBus d s)))

/-- The cycle after the late phase (R251). -/
def Effects.late (E : Effects) (d : Microword) (s : State) : Cyc := E.bsLate (E.f2Late (E.f1Late (aluPhase (E.early d s))))

/-- The dispatches of the word `d` in a cycle from `s` have these effects; F2 and BS leave the mask that a TASK word reads. -/
structure Effects.Run (E : Effects) (d : Microword) (s : State) : Prop where
  f2Early : ∀ c, InCycle d s c → runF2 .early c = .ok (E.f2Early c)
  bsEarly : ∀ c, InCycle d s c → runBs .early c = .ok (E.bsEarly c)
  f1Early : ∀ c, InCycle d s c → c.st.wakeup = s.wakeup → runF1 .early c = .ok (E.f1Early c)
  f1Late  : ∀ c, InCycle d s c → runF1 .late c = .ok (E.f1Late c)
  f2Late  : ∀ c, InCycle d s c → runF2 .late c = .ok (E.f2Late c)
  bsLate  : ∀ c, InCycle d s c → runBs .late c = .ok (E.bsLate c)
  wakeup  : ∀ c, (E.bsEarly (E.f2Early c)).st.wakeup = c.st.wakeup

theorem onBus_inCycle (d : Microword) (s : State) : InCycle d s (onBus d s) := ⟨rfl, rfl, rfl, rfl⟩

theorem Effects.Run.beforeEarlyF1 {E : Effects} {d : Microword} {s : State} (h : E.Run d s) (hread : readReady s = true) :
    beforeEarlyF1 d s = .ok (E.bsEarly (E.f2Early (onBus d s))) ∧ InCycle d s (E.bsEarly (E.f2Early (onBus d s))) := by
  obtain ⟨c0, h0, hbus⟩ := readPerform_eq (d := d) hread
  have i0 := onBus_inCycle d s
  have h1 := h.f2Early _ i0
  have i1 := i0.of_frame (runF2_frame h1)
  have h2 := h.bsEarly _ i1
  exact ⟨andThen_ok h0 (andThen_ok (hbus ▸ h1) h2), i1.of_frame (runBs_frame h2)⟩

theorem Effects.Run.earlyPhase {E : Effects} {d : Microword} {s : State} (h : E.Run d s) (hread : readReady s = true) :
    earlyPhase d s = .ok (E.early d s) ∧ InCycle d s (E.early d s) := by
  obtain ⟨hbefore, i2⟩ := h.beforeEarlyF1 hread
  have h3 := h.f1Early _ i2 (h.wakeup _)
  exact ⟨by rw [earlyPhase_eq]; exact andThen_ok hbefore h3, i2.of_frame (runF1_frame h3)⟩

theorem Effects.Run.latePhase {E : Effects} {d : Microword} {s : State} (h : E.Run d s) (hread : readReady s = true) :
    latePhase (aluPhase (E.early d s)) = .ok (E.late d s) := by
  obtain ⟨-, i0⟩ := h.earlyPhase hread
  have h1 := h.f1Late _ i0.aluPhase
  have i1 := i0.aluPhase.of_frame (runF1_frame h1)
  have h2 := h.f2Late _ i1
  have i2 := i1.of_frame (runF2_frame h2)
  exact andThen_ok h1 (andThen_ok h2 (h.bsLate _ i2))

/-- The state that a word with these effects ends in. -/
def Effects.end (E : Effects) (d : Microword) (s : State) : State := cycleEnd d (E.early d s) (E.late d s)

theorem Effects.Run.exec {E : Effects} {i : Instr} {s : State} (h : E.Run (instrFields i) s) (hrun : s.run = .running)
    (hstall : stalled (instrFields i) s = false) (hread : readReady s = true) :
    exec i s = .next (E.end (instrFields i) s) :=
  exec_of_phases hrun hstall (h.earlyPhase hread).1 (h.latePhase hread)

/-- An instruction completes with what holds of the effects of its dispatches. -/
theorem completes_of_effects {i : Instr} {s : State} {P : Cyc → State → Prop}
    (h : s.WellFormed → ready (instrFields i) s = true →
      ∃ E : Effects, E.Run (instrFields i) s ∧ P (E.early (instrFields i) s) (E.end (instrFields i) s)) :
    Completes i s P := by
  refine completes_of_phases fun hs hready c c' he hl => ?_
  obtain ⟨E, hE, hP⟩ := h hs hready
  obtain ⟨-, -, hread, -⟩ := (ready_iff _ _).mp hready
  rw [(hE.earlyPhase hread).1] at he
  cases he
  rw [hE.latePhase hread] at hl
  cases hl
  exact hP

/-! ## Words with default entries -/

theorem task_finds_wakeup {d : Microword} {s : State} (h : f1Ready d s = true) (h2 : d.f1 = 2) (hne : d.f1 ≠ s.cfg.f1Const) :
    s.wakeup ≠ 0 := by
  simp only [f1Ready, Bool.or_eq_true, beq_iff_eq, hne, false_or, Bool.and_eq_true, bne_iff_ne, ne_eq] at h
  obtain ⟨-, hwake⟩ := h
  exact hwake.resolve_left (fun hne2 => hne2 h2)

theorem defaultEffects_run {d : Microword} {s : State} (hready : ready d s = true) (hplain : plain d s = true) :
    defaultEffects.Run d s := by
  obtain ⟨-, -, -, hf2, hbs, hf1⟩ := (ready_iff _ _).mp hready
  obtain ⟨pf2, pbs, pf1⟩ := (plain_iff _ _).mp hplain
  constructor
  case f2Early => exact fun c hc => runF2_early_default hc (f2Default_of_ready hf2 pf2 _)
  case bsEarly => exact fun c hc => runBs_early_default hc (bsDefault_of_ready hbs pbs _)
  case f1Early =>
    exact fun c hc hw => runF1_early_default hc (f1Default_of_ready hf1 pf1 _)
      fun h2 hne => hw ▸ task_finds_wakeup hf1 h2 hne
  case f1Late => exact fun c hc => runF1_late_default hc (f1Default_of_ready hf1 pf1 _)
  case f2Late => exact fun c hc => runF2_late_default hc (f2Default_of_ready hf2 pf2 _)
  case bsLate => exact fun c hc => runBs_late_default hc (bsDefault_of_ready hbs pbs _)
  case wakeup => exact fun c => rfl

/-- The bus of a word with default entries, once the source has driven it. -/
theorem bus_bsEarlyEffect_onBus (d : Microword) (s : State) : (bsEarlyEffect (onBus d s)).bus = plainBus d s := by
  change (readValue s &&& (if constSel s.cfg d then constWord s.cfg (constIndex d.rsel d.bs) else 0xFFFF)) &&&
    (if constSel s.cfg d then 0xFFFF else sourceValue d s) = plainBus d s
  unfold plainBus
  cases constSel s.cfg d <;> simp

end Sys2Proof.Machine
end

section
/-! PROOFS. Words whose fields have their default entries: the refinement of the rules (R246 against R120 to R254), and the rows
that follow from it. -/

namespace Sys2Proof.Machine

/-! ## The refinement -/

theorem writeS_sregs_congr {s u : State} (h : u.sregs = s.sregs) (b : Nat) (i : RegNum) (v : Word) :
    (writeS u b i v).sregs = (writeS s b i v).sregs := by
  unfold writeS
  rw [h]
  split <;> simp [h]

/-- The S registers after the commit of an L load (R166). -/
theorem commit_sregs_eq {s u : State} (d : Microword) (o : AluOut) (bus : Word) (hsregs : u.sregs = s.sregs)
    (hcfg : u.cfg = s.cfg) (htask : u.task = s.task) (hsbank : u.sbank = s.sbank) :
    (commit d o bus u).sregs = afterLoadS d s o.alu := by
  rw [commit_sregs]
  unfold afterLoadS commitL
  rw [hcfg, htask, hsbank]
  cases d.loadl <;> cases ramRelated s.cfg s.task <;> simp [hsregs]
  apply writeS_sregs_congr
  rfl

/-! ## The state of a word with default entries, phase by phase -/

section aluPhaseFields

variable (c : Cyc)

@[simp] theorem aluPhase_cfg : (aluPhase c).st.cfg = c.st.cfg := writeBack_cfg _ _
@[simp] theorem aluPhase_page : (aluPhase c).st.page = c.st.page := writeBack_page _ _
@[simp] theorem aluPhase_r : (aluPhase c).st.r = c.st.r := writeBack_r _ _
@[simp] theorem aluPhase_sregs : (aluPhase c).st.sregs = c.st.sregs := writeBack_sregs _ _
@[simp] theorem aluPhase_l : (aluPhase c).st.l = c.st.l := writeBack_l _ _
@[simp] theorem aluPhase_t : (aluPhase c).st.t = c.st.t := writeBack_t _ _
@[simp] theorem aluPhase_m : (aluPhase c).st.m = c.st.m := writeBack_m _ _
@[simp] theorem aluPhase_laluc0 : (aluPhase c).st.laluc0 = c.st.laluc0 := writeBack_laluc0 _ _
@[simp] theorem aluPhase_sbank : (aluPhase c).st.sbank = c.st.sbank := writeBack_sbank _ _
@[simp] theorem aluPhase_wrAddr : (aluPhase c).st.wrAddr = c.st.wrAddr := writeBack_wrAddr _ _
@[simp] theorem aluPhase_rdPend : (aluPhase c).st.rdPend = c.st.rdPend := writeBack_rdPend _ _
@[simp] theorem aluPhase_rdAddr : (aluPhase c).st.rdAddr = c.st.rdAddr := writeBack_rdAddr _ _
@[simp] theorem aluPhase_wakeup : (aluPhase c).st.wakeup = c.st.wakeup := writeBack_wakeup _ _
@[simp] theorem aluPhase_reqTask : (aluPhase c).st.reqTask = c.st.reqTask := writeBack_reqTask _ _
@[simp] theorem aluPhase_ticks : (aluPhase c).st.ticks = c.st.ticks := writeBack_ticks _ _
@[simp] theorem aluPhase_inputs : (aluPhase c).st.inputs = c.st.inputs := writeBack_inputs _ _
@[simp] theorem aluPhase_calls : (aluPhase c).st.calls = c.st.calls := writeBack_calls _ _
@[simp] theorem aluPhase_wrPend : (aluPhase c).st.wrPend = false := writeBack_wrPend _ _
@[simp] theorem aluPhase_shifter : (aluPhase c).shifter = c.shifter := by simp [Cyc.shifter, aluPhase]
@[simp] theorem aluPhase_aluWord : (aluPhase c).aluWord = (cycleAlu c).alu := rfl

end aluPhaseFields

/-- What the ALU of a word with default entries gives. -/
def plainAlu (d : Microword) (s : State) : AluOut := aluFn s.cfg.subCarry d.aluf (plainBus d s) s.t s.input.skip

theorem defaultEffects_early_bus (d : Microword) (s : State) : (defaultEffects.early d s).bus = plainBus d s :=
  bus_bsEarlyEffect_onBus d s

theorem defaultEffects_early_alu (d : Microword) (s : State) : cycleAlu (defaultEffects.early d s) = plainAlu d s := by
  rw [plainAlu, ← defaultEffects_early_bus]
  rfl

/-- The state after the early phase: the read is done, a TASK word has made its request, the sources' calls are recorded. -/
theorem defaultEffects_early_st (d : Microword) (s : State) :
    (defaultEffects.early d s).st =
      { s with
        rdPend := false
        reqTask := if d.f1 = 2 ∧ d.f1 ≠ s.cfg.f1Const then (highestWakeup s.wakeup).getD s.reqTask else s.reqTask
        calls := plainEarlyCalls d s ++ s.calls } := rfl

/-- What the default late operations leave: LOADR's write, and the calls of LOADMAR and LOADMD. -/
theorem lateEffects_st (c : Cyc) :
    (bsLateEffect (f2LateEffect (f1LateEffect c))).st =
      { c.st with
        r := if c.d.bs = 1 ∧ constSel c.st.cfg c.d = false then set32 c.st.r c.rsel (quirkValue c.st.cfg c.rsel c.shifter)
          else c.st.r
        calls :=
          (if c.d.f2 = 6 ∧ c.d.f2 ≠ c.st.cfg.f2Const then [.writeMem c.bus] else []) ++
            ((if c.d.f1 = 1 ∧ c.d.f1 ≠ c.st.cfg.f1Const then [.loadMar c.rsel c.aluWord] else []) ++ c.st.calls) } := rfl

theorem lateEffects_nmod (c : Cyc) : (bsLateEffect (f2LateEffect (f1LateEffect c))).nmod = c.nmod ||| f2Bits c := rfl

theorem defaultEffects_late_eq (d : Microword) (s : State) :
    defaultEffects.late d s = bsLateEffect (f2LateEffect (f1LateEffect (aluPhase (defaultEffects.early d s)))) := rfl

/-- The branch bits, from the state at the start of the cycle. -/
theorem defaultEffects_late_nmod (d : Microword) (s : State) : (defaultEffects.late d s).nmod = plainBits d s := by
  rw [defaultEffects_late_eq, lateEffects_nmod]
  unfold f2Bits plainBits
  rw [aluPhase_shifter, aluPhase_cfg, aluPhase_laluc0, ← defaultEffects_early_bus]
  exact BitVec.zero_or

theorem defaultEffects_late_r (d : Microword) (s : State) :
    (defaultEffects.late d s).st.r =
      if d.bs = 1 ∧ constSel s.cfg d = false
        then set32 s.r d.rsel (quirkValue s.cfg d.rsel (shifterOut d.f1 s.l s.t false)) else s.r := by
  rw [defaultEffects_late_eq, lateEffects_st]
  simp only [aluPhase_cfg, aluPhase_r, aluPhase_shifter]
  rfl

theorem defaultEffects_late_calls (d : Microword) (s : State) :
    (defaultEffects.late d s).st.calls = plainLateCalls d s (plainAlu d s).alu ++ (plainEarlyCalls d s ++ s.calls) := by
  rw [defaultEffects_late_eq, lateEffects_st, plainLateCalls, List.append_assoc]
  simp only [aluPhase_cfg, aluPhase_calls, aluPhase_aluWord, defaultEffects_early_alu]
  rw [← defaultEffects_early_bus]
  rfl

/-- What no default operation writes, the two records that the cycle has used up, and the request of a TASK word. -/
theorem defaultEffects_late_rest (d : Microword) (s : State) :
    (defaultEffects.late d s).st.page = s.page ∧ (defaultEffects.late d s).st.sregs = s.sregs ∧
      (defaultEffects.late d s).st.sbank = s.sbank ∧ (defaultEffects.late d s).st.wrPend = false ∧
      (defaultEffects.late d s).st.wrAddr = s.wrAddr ∧ (defaultEffects.late d s).st.rdPend = false ∧
      (defaultEffects.late d s).st.rdAddr = s.rdAddr ∧ (defaultEffects.late d s).st.wakeup = s.wakeup ∧
      (defaultEffects.late d s).st.reqTask =
        if d.f1 = 2 ∧ d.f1 ≠ s.cfg.f1Const then (highestWakeup s.wakeup).getD s.reqTask else s.reqTask := by
  rw [defaultEffects_late_eq, lateEffects_st]
  simp only [aluPhase_page, aluPhase_sregs, aluPhase_sbank, aluPhase_wrPend, aluPhase_wrAddr, aluPhase_rdPend,
    aluPhase_rdAddr, aluPhase_wakeup, aluPhase_reqTask, defaultEffects_early_st, and_self]

/-- Two states with the same fields are the same. -/
theorem State.eq_of_fields {s u : State} (run : s.run = u.run) (cfg : s.cfg = u.cfg) (task : s.task = u.task)
    (mpc : s.mpc = u.mpc) (page : s.page = u.page) (r : s.r = u.r) (sregs : s.sregs = u.sregs) (l : s.l = u.l)
    (t : s.t = u.t) (m : s.m = u.m) (laluc0 : s.laluc0 = u.laluc0) (taskMpc : s.taskMpc = u.taskMpc)
    (taskPage : s.taskPage = u.taskPage) (sbank : s.sbank = u.sbank) (wrPend : s.wrPend = u.wrPend)
    (wrAddr : s.wrAddr = u.wrAddr) (rdPend : s.rdPend = u.rdPend) (rdAddr : s.rdAddr = u.rdAddr)
    (store : s.store = u.store) (bankreg : s.bankreg = u.bankreg) (wakeup : s.wakeup = u.wakeup)
    (reqTask : s.reqTask = u.reqTask) (confTask : s.confTask = u.confTask) (ticks : s.ticks = u.ticks)
    (inputs : s.inputs = u.inputs) (calls : s.calls = u.calls) : s = u := by
  cases s
  cases u
  simp_all only

/-- The rules field by field are what the effects of the default entries give in the order of the cycle. -/
theorem defaultEffects_end {d : Microword} {s : State} (h : defaultEffects.Run d s) (hread : readReady s = true) :
    defaultEffects.end d s = plainNext d s := by
  obtain ⟨he, -⟩ := h.earlyPhase hread
  have hl := h.latePhase hread
  have keep := phases_keep he hl
  have hstore := phases_store_eq he hl
  obtain ⟨hpage, hsregs, hsbank, hwrPend, hwrAddr, hrdPend, hrdAddr, hwakeup, hreqTask⟩ := defaultEffects_late_rest d s
  have hr := defaultEffects_late_r d s
  have hcalls := defaultEffects_late_calls d s
  rw [defaultEffects_early_alu] at hstore
  unfold Effects.end cycleEnd nextAddress plainNext
  refine congrArg switchEvaluation ?_
  rw [defaultEffects_early_alu, defaultEffects_late_nmod, defaultEffects_early_bus]
  generalize (defaultEffects.late d s).st = u at *
  apply State.eq_of_fields
  case mpc => rfl
  case sregs => exact commit_sregs_eq d _ _ hsregs keep.cfg keep.task hsbank
  case run => rw [commit_run, keep.run]
  case cfg => rw [commit_cfg, keep.cfg]
  case task => rw [commit_task, keep.task]
  case taskMpc => rw [commit_taskMpc, keep.taskMpc]
  case taskPage => rw [commit_taskPage, keep.taskPage]
  case bankreg => rw [commit_bankreg, keep.bankreg]
  case confTask => rw [commit_confTask, keep.confTask]
  case ticks => rw [commit_ticks, keep.ticks]
  case inputs => rw [commit_inputs, keep.inputs]
  case page => rw [commit_page, hpage]
  case r => rw [commit_r, hr]
  case sbank => rw [commit_sbank, hsbank]
  case wrPend => rw [commit_wrPend, hwrPend]
  case wrAddr => rw [commit_wrAddr, hwrAddr]
  case rdPend => rw [commit_rdPend, hrdPend]
  case rdAddr => rw [commit_rdAddr, hrdAddr]
  case store => rw [commit_store, hstore]; rfl
  case wakeup => rw [commit_wakeup, hwakeup]
  case reqTask => rw [commit_reqTask, hreqTask]
  case calls => rw [commit_calls, hcalls]; rfl
  case l => rw [commit_l, keep.l]; rfl
  case t => rw [commit_t, keep.t]; rfl
  case laluc0 => rw [commit_laluc0, keep.laluc0]; rfl
  case m => rw [commit_m, keep.m, keep.cfg, keep.task]; rfl

/-- Settles O12: a ready word with default entries has the default effects, and those give the rules field by field. -/
theorem plainWordsRefineTheirRules : Obligations.PlainWordsRefineTheirRules := by
  intro i s hready hplain
  obtain ⟨hrun, hstall, hread, -⟩ := (ready_iff _ _).mp hready
  have h := defaultEffects_run hready hplain
  rw [h.exec hrun hstall hread, defaultEffects_end h hread]

end Sys2Proof.Machine
end

section
/-! PROOFS. The rows whose fields have their default entries, read off the state that the rules give (O12). -/

namespace Sys2Proof.Machine

/-! ## The fields of the state that the rules give -/

section plainNextFields

variable (d : Microword) (s : State)

theorem plainNext_r :
    (plainNext d s).r =
      if d.bs = 1 ∧ constSel s.cfg d = false
        then set32 s.r d.rsel (quirkValue s.cfg d.rsel (shifterOut d.f1 s.l s.t false)) else s.r := switchEvaluation_r _

theorem plainNext_sregs : (plainNext d s).sregs = afterLoadS d s (plainAlu d s).alu := switchEvaluation_sregs _

theorem plainNext_wakeup : (plainNext d s).wakeup = s.wakeup := switchEvaluation_wakeup _

theorem plainNext_wrPend : (plainNext d s).wrPend = false := switchEvaluation_wrPend _

theorem plainNext_rdPend : (plainNext d s).rdPend = false := switchEvaluation_rdPend _

theorem plainNext_reqTask :
    (plainNext d s).reqTask =
      if d.f1 = 2 ∧ d.f1 ≠ s.cfg.f1Const then (highestWakeup s.wakeup).getD s.reqTask else s.reqTask :=
  switchEvaluation_reqTask _

theorem switchEvaluation_confTask (s : State) : (switchEvaluation s).confTask = s.reqTask := rfl

theorem plainNext_confTask : (plainNext d s).confTask = (plainNext d s).reqTask := by
  rw [plainNext_reqTask]
  exact switchEvaluation_confTask _

theorem plainNext_task : (plainNext d s).task = s.confTask := (switchEvaluation_cells _).1

/-- The calls of the switch evaluation come after those of the word. -/
theorem switchEvaluation_calls (s : State) : ∃ ks, (switchEvaluation s).calls = ks ++ s.calls := by
  unfold switchEvaluation switchTo
  by_cases h : s.confTask = s.task
  · exact ⟨[], by simp [h]⟩
  · cases hcall : s.cfg.becameActive.getLsbD s.confTask.toNat
    · exact ⟨[], by simp [h]⟩
    · exact ⟨[.becameActive s.confTask], by simp [h]⟩

theorem plainNext_calls :
    ∃ ks, (plainNext d s).calls = ks ++ (plainLateCalls d s (plainAlu d s).alu ++ (plainEarlyCalls d s ++ s.calls)) :=
  switchEvaluation_calls _

/-- Where no switch is due, step 10 leaves the word's own next address, page and calls. -/
theorem plainNext_stay (h : s.confTask = s.task) :
    (plainNext d s).mpc = d.next ||| plainBits d s ∧ (plainNext d s).page = s.page ∧
      (plainNext d s).calls = plainLateCalls d s (plainAlu d s).alu ++ (plainEarlyCalls d s ++ s.calls) := by
  simp [plainNext, plainAlu, switchEvaluation, h]

end plainNextFields

/-- The bus of a word off the constant path. -/
theorem plainBus_of_source {d : Microword} {s : State} (h : constSel s.cfg d = false) :
    plainBus d s = readValue s &&& sourceValue d s := by
  simp [plainBus, h]

/-- The bus of a constant word. -/
theorem plainBus_of_const {d : Microword} {s : State} (h : constSel s.cfg d = true) :
    plainBus d s = readValue s &&& constWord s.cfg (d.rsel.toNat * 8 + d.bs.toNat) := by
  simp [plainBus, h, constIndex]

/-- An instruction completes with what the rules give, where its fields have their default entries. -/
theorem completes_of_plain {i : Instr} {s : State} {P : Cyc → State → Prop}
    (h : ready (instrFields i) s = true → plain (instrFields i) s = true →
      P (defaultEffects.early (instrFields i) s) (plainNext (instrFields i) s)) :
    Completes i s (fun c u => plain (instrFields i) s = true → P c u) := by
  refine completes_of_phases fun _ hready c c' he hl hplain => ?_
  obtain ⟨-, -, hread, -⟩ := (ready_iff _ _).mp hready
  have hrun := defaultEffects_run hready hplain
  obtain ⟨he', -⟩ := hrun.earlyPhase hread
  rw [he] at he'
  cases he'
  rw [hrun.latePhase hread] at hl
  cases hl
  have hend := defaultEffects_end hrun hread
  unfold Effects.end at hend
  rw [hend]
  exact h hready hplain

/-! ## Bus sources and constants -/

/-- A word whose default source makes one call records it, before the calls of the late phase. -/
theorem plainNext_source_call {d : Microword} {s : State} {k : Call} (h : plainEarlyCalls d s = [k]) :
    ∃ later, (plainNext d s).calls = later ++ k :: s.calls := by
  obtain ⟨ks, hks⟩ := plainNext_calls d s
  refine ⟨ks ++ plainLateCalls d s (plainAlu d s).alu, ?_⟩
  rw [hks, h]
  simp

/-- The call of a word off the constant path is its source's (R185 to R187). -/
theorem plainEarlyCalls_of_source {d : Microword} {s : State} (h : constSel s.cfg d = false) :
    plainEarlyCalls d s =
      if d.bs = 5 then [.readMem] else if d.bs = 6 then [.mouse] else if d.bs = 7 then [.disp] else [] := by
  simp [plainEarlyCalls, h]

/-- Settles O22: off the constant path the bus is the pending read ANDed with the source's value, row by row. -/
theorem busSourceRowsDriveTheBus : Obligations.BusSourceRowsDriveTheBus := by
  intro rsel aluf f1 f2 lt ll next s
  refine ⟨completes_of_plain fun _ _ hsel => ?readr, completes_of_plain fun _ _ hsel => ?loadr,
    completes_of_plain fun _ _ hsel => ?none, completes_of_plain fun _ _ hsel => ⟨?readmdBus, ?readmdCall⟩,
    completes_of_plain fun _ _ hsel => ⟨?mouseBus, ?mouseCall⟩, completes_of_plain fun _ _ hsel => ⟨?dispBus, ?dispCall⟩⟩
  case readr => exact (defaultEffects_early_bus _ _).trans (plainBus_of_source hsel)
  case loadr => exact (defaultEffects_early_bus _ _).trans (plainBus_of_source hsel)
  case none => exact ((defaultEffects_early_bus _ _).trans (plainBus_of_source hsel)).trans (and_allOnes _)
  case readmdBus => exact (defaultEffects_early_bus _ _).trans (plainBus_of_source hsel)
  case mouseBus => exact (defaultEffects_early_bus _ _).trans (plainBus_of_source hsel)
  case dispBus => exact (defaultEffects_early_bus _ _).trans (plainBus_of_source hsel)
  case readmdCall => exact plainNext_source_call (plainEarlyCalls_of_source hsel)
  case mouseCall => exact plainNext_source_call (plainEarlyCalls_of_source hsel)
  case dispCall => exact plainNext_source_call (plainEarlyCalls_of_source hsel)

/-- What a constant word with default entries does: the constant on the bus, no call of a source, no R register. -/
theorem plain_constant_word {d : Microword} {s : State} (h : constSel s.cfg d = true) :
    (defaultEffects.early d s).bus = readValue s &&& constWord s.cfg (d.rsel.toNat * 8 + d.bs.toNat) ∧
      (defaultEffects.early d s).st.calls = s.calls ∧ (plainNext d s).r = s.r ∧
      (plainNext d s).sregs = afterLoadS d s (cycleAlu (defaultEffects.early d s)).alu := by
  refine ⟨(defaultEffects_early_bus d s).trans (plainBus_of_const h), ?calls, ?r, ?sregs⟩
  case calls => simp [defaultEffects_early_st, plainEarlyCalls, h]
  case r => simp [plainNext_r, h]
  case sregs => rw [plainNext_sregs, defaultEffects_early_alu]

/-- Settles O23: a field with the constant value puts its word on the constant path. -/
theorem constantRowsBypassTheBusSource : Obligations.ConstantRowsBypassTheBusSource := by
  intro rsel aluf bs f1 f2 lt ll next s
  refine ⟨fun h7 => completes_of_plain fun _ _ => plain_constant_word ?f1,
    fun h7 => completes_of_plain fun _ _ => plain_constant_word ?f2⟩
  case f1 => simp [constSel, instrFields, h7]
  case f2 => simp [constSel, instrFields, h7]

/-! ## Registers -/

/-- The workaround of R159 in the order of the rule's words. -/
theorem quirkValue_eq (c : Config) (i : RegNum) (v : Word) :
    quirkValue c i v = if c.quirkEnable = true ∧ i = c.quirkReg ∧ v &&& 3 ≠ 0 then v &&& 0xFFFC else v := by
  simp [quirkValue, and_assoc]

/-- Settles O24: the register file is the one with R[rsel] replaced. -/
theorem loadrWritesTheShifterOutput : Obligations.LoadrWritesTheShifterOutput := by
  intro rsel aluf f1 f2 lt ll next s
  refine completes_of_plain fun _ _ hsel => ?_
  have hr : (plainNext ⟨rsel, aluf, 1, f1, f2, lt, ll, next⟩ s).r =
      set32 s.r rsel (quirkValue s.cfg rsel (shifterOut f1 s.l s.t false)) := by
    rw [plainNext_r, if_pos ⟨rfl, hsel⟩]
  refine ⟨?_, fun j hj => ?_⟩
  · exact (congrArg (at32 · rsel) hr).trans ((at32_set32_same _ _ _).trans (quirkValue_eq _ _ _))
  · exact (congrArg (at32 · j) hr).trans (at32_set32_other _ _ hj)

/-! ## Words with default entries that are not known to be ready -/

/-- A slot that holds nothing installed has its default entry in both phases, or is unset in both (R244). -/
theorem resolve_of_plainSlot {s : State} {fam : Family} {code : Nat} (hp : plainSlot s fam code = true) (ph : Phase) :
    resolve s.cfg ph s.task fam code = if taskSpecific fam code then .unset else .byDefault := by
  simp only [plainSlot, Bool.and_eq_true, Option.isNone_iff_eq_none] at hp
  obtain ⟨hearly, hlate⟩ := hp
  unfold resolve
  cases ph <;> simp only [hearly, hlate, otherPhase]

/-- Where a dispatch of such a slot answers, the slot has its default entry. -/
theorem taskSpecific_of_dispatch_ok {d : Microword} {s : State} {ph : Phase} {fam : Family} {code : Nat}
    {dflt : Cyc → Except Stop Cyc} {c c' : Cyc} (hc : InCycle d s c) (hp : plainSlot s fam code = true)
    (h : dispatch ph fam code dflt c = .ok c') : taskSpecific fam code = false := by
  by_contra hcode
  rw [Bool.not_eq_false] at hcode
  have hunset : resolve c.st.cfg ph c.st.task fam code = .unset := by
    rw [hc.cfg, hc.task, resolve_of_plainSlot hp, if_pos hcode]
  simp [dispatch, hunset] at h

theorem f2Default_of_ok {d : Microword} {s : State} {c c' : Cyc} (hc : InCycle d s c)
    (hp : d.f2 = s.cfg.f2Const ∨ plainSlot s .f2 d.f2.toNat = true) (h : runF2 .early c = .ok c') (ph : Phase) :
    F2Default d s ph := by
  by_cases hconst : d.f2 = s.cfg.f2Const
  · exact .inl hconst
  · have hslot := hp.resolve_left hconst
    unfold runF2 at h
    rw [hc.d, hc.cfg, if_neg hconst] at h
    refine .inr ?_
    rw [resolve_of_plainSlot hslot, taskSpecific_of_dispatch_ok hc hslot h]
    rfl

theorem bsDefault_of_ok {d : Microword} {s : State} {c c' : Cyc} (hc : InCycle d s c)
    (hp : constSel s.cfg d = true ∨ plainSlot s .bs d.bs.toNat = true) (h : runBs .early c = .ok c') (ph : Phase) :
    BsDefault d s ph := by
  by_cases hconst : constSel s.cfg d = true
  · exact .inl hconst
  · have hslot := hp.resolve_left hconst
    unfold runBs at h
    rw [hc.d, hc.cfg, if_neg hconst] at h
    refine .inr ?_
    rw [resolve_of_plainSlot hslot, taskSpecific_of_dispatch_ok hc hslot h]
    rfl

theorem f1Default_of_ok {d : Microword} {s : State} {c c' : Cyc} (hc : InCycle d s c)
    (hp : d.f1 = s.cfg.f1Const ∨ plainSlot s .f1 d.f1.toNat = true) (h : runF1 .early c = .ok c') (ph : Phase) :
    F1Default d s ph := by
  by_cases hconst : d.f1 = s.cfg.f1Const
  · exact .inl hconst
  · have hslot := hp.resolve_left hconst
    unfold runF1 at h
    rw [hc.d, hc.cfg, if_neg hconst] at h
    refine .inr ?_
    rw [resolve_of_plainSlot hslot, taskSpecific_of_dispatch_ok hc hslot h]
    rfl

/-- Where the default early F1 step of a TASK word answers, it found a wakeup bit. -/
theorem wakeup_of_f1_ok {d : Microword} {s : State} {c c' : Cyc} (hc : InCycle d s c) (hdefault : F1Default d s .early)
    (h : runF1 .early c = .ok c') (h2 : d.f1 = 2) (hne : d.f1 ≠ s.cfg.f1Const) : c.st.wakeup ≠ 0 := by
  intro hzero
  have hslot : resolve c.st.cfg .early c.st.task .f1 d.f1.toNat = .byDefault := by
    rw [hc.cfg, hc.task]
    exact hdefault.resolve_left hne
  unfold runF1 at h
  rw [hc.d, hc.cfg, if_neg hne] at h
  change dispatch .early .f1 d.f1.toNat (f1EarlyDefault d.f1) c = .ok c' at h
  rw [dispatch_default hslot, h2] at h
  obtain ⟨j, hj, -⟩ | ⟨-, harb⟩ := arbitrate_cases c
  · rw [(highestWakeup_eq_none _).mpr hzero] at hj
    cases hj
  · exact absurd (harb.symm.trans h) (by simp)

/-- A completed word with default entries went by their effects, whether or not it was known to be ready. -/
theorem defaultEffects_run_of_ok {d : Microword} {s : State} {c : Cyc} (hread : readReady s = true)
    (hplain : plain d s = true) (he : earlyPhase d s = .ok c) : defaultEffects.Run d s := by
  obtain ⟨pf2, pbs, pf1⟩ := (plain_iff _ _).mp hplain
  obtain ⟨c0, c1, c2, h0, h1, h2, h3⟩ := earlyPhase_ok he
  obtain ⟨c0', h0', hbus⟩ := readPerform_eq (d := d) hread
  rw [h0'] at h0
  cases h0
  rw [hbus] at h1
  have i0 := onBus_inCycle d s
  have hf2 := f2Default_of_ok i0 pf2 h1
  rw [runF2_early_default i0 (hf2 .early)] at h1
  cases h1
  have hbs := bsDefault_of_ok i0 pbs h2
  rw [runBs_early_default i0 (hbs .early)] at h2
  cases h2
  have i2 : InCycle d s (bsEarlyEffect (onBus d s)) := ⟨rfl, rfl, rfl, rfl⟩
  have hf1 := f1Default_of_ok i2 pf1 h3
  constructor
  case f2Early => exact fun c hc => runF2_early_default hc (hf2 _)
  case bsEarly => exact fun c hc => runBs_early_default hc (hbs _)
  case f1Early =>
    exact fun c hc hw => runF1_early_default hc (hf1 _) fun h2 hne => hw ▸ wakeup_of_f1_ok i2 (hf1 .early) h3 h2 hne
  case f1Late => exact fun c hc => runF1_late_default hc (hf1 _)
  case f2Late => exact fun c hc => runF2_late_default hc (hf2 _)
  case bsLate => exact fun c hc => runBs_late_default hc (hbs _)
  case wakeup => exact fun c => rfl

/-- Where the pending read answers, it could be performed. -/
theorem readReady_of_ok {d : Microword} {s : State} {c : Cyc} (h : readPerform (startCycle d s) = .ok c) :
    readReady s = true := by
  obtain ⟨hp, -⟩ | ⟨v, -, hrom, hv, -⟩ := readPerform_ok h
  · have hpend : s.rdPend = false := hp
    simp [readReady, hpend]
  · have hrom' : ramRomsel s.rdAddr = false := hrom
    change uRamRead s (ramBank s.rdAddr) (ramWord s.rdAddr) (ramHalf s.rdAddr) = .ok v at hv
    unfold uRamRead at hv
    unfold readReady
    cases hb : bankInRange s.cfg (ramBank s.rdAddr) with
    | none => simp [hrom']
    | some b =>
      cases hw : s.store.read (ramAddr s.cfg b (ramWord s.rdAddr)) with
      | none => simp [hb, hw] at hv
      | some w => simp [hrom', hw]

/-- All that an instruction with default entries can do: nothing, a fatal error, or what the rules give. -/
theorem exec_plain_cases {i : Instr} {s u : State} (hplain : plain (instrFields i) s = true) (h : exec i s = .next u) :
    u = s ∨ (∃ f, u = takeFatal s f) ∨ u = plainNext (instrFields i) s := by
  obtain rfl | ⟨f, -, -, rfl⟩ | ⟨c, c', hrun, hstall, he, hl, -⟩ := exec_next_cases h
  · exact .inl rfl
  · exact .inr (.inl ⟨f, rfl⟩)
  · obtain ⟨c0, -, -, h0, -⟩ := earlyPhase_ok he
    have hread := readReady_of_ok h0
    have heffects := defaultEffects_run_of_ok hread hplain he
    rw [heffects.exec hrun hstall hread, defaultEffects_end heffects hread] at h
    cases h
    exact .inr (.inr rfl)

/-- Settles O27: only LOADR off the constant path writes the register file. -/
theorem onlyLoadrWritesR : Obligations.OnlyLoadrWritesR := by
  intro i s u hplain hbs h
  obtain rfl | ⟨f, rfl⟩ | rfl := exec_plain_cases hplain h
  · rfl
  · rfl
  · rw [plainNext_r, if_neg]
    rintro ⟨h1, hsel⟩
    simp [h1, hsel] at hbs

/-- The S write port changes one register only, or none where the bank does not exist. -/
theorem readS_writeS_other (s : State) {b b' : Nat} {i j : RegNum} (v : Word) (h : b' ≠ b ∨ j ≠ i) :
    readS (writeS s b i v) b' j = readS s b' j := by
  by_cases hb : b < s.sregs.length
  · rw [readS_writeS hb, if_neg]
    rintro ⟨rfl, rfl⟩
    simp at h
  · simp [writeS, List.getElem?_eq_none (Nat.not_lt.mp hb)]

/-- Settles O21: the S files after the word are those of its L load, if it has one. -/
theorem onlyLoadsOfRamTasksWriteS : Obligations.OnlyLoadsOfRamTasksWriteS := by
  intro i s u hplain h b k hother
  obtain rfl | ⟨f, rfl⟩ | rfl := exec_plain_cases hplain h
  · rfl
  · rfl
  · have hsregs := plainNext_sregs (instrFields i) s
    unfold afterLoadS at hsregs
    cases hload : (instrFields i).loadl && ramRelated s.cfg s.task with
    | false =>
      rw [hload] at hsregs
      exact readS_congr hsregs b k
    | true =>
      rw [hload] at hsregs
      obtain ⟨hl, hr⟩ := Bool.and_eq_true_iff.mp hload
      simp only [hl, hr, Bool.true_eq_false, false_or] at hother
      exact (readS_congr hsregs b k).trans (readS_writeS_other s _ hother)

/-! ## F1 rows -/

/-- LOADMAR's call is the first of the late phase. -/
theorem plainNext_loadmar_call {d : Microword} {s : State} (h1 : d.f1 = 1) (hne : d.f1 ≠ s.cfg.f1Const) :
    ∃ later, (plainNext d s).calls =
      later ++ .loadMar d.rsel (cycleAlu (defaultEffects.early d s)).alu :: (defaultEffects.early d s).st.calls := by
  obtain ⟨ks, hks⟩ := plainNext_calls d s
  refine ⟨ks ++ (if d.f2 = 6 ∧ d.f2 ≠ s.cfg.f2Const then [.writeMem (plainBus d s)] else []), ?_⟩
  have hcall : d.f1 = 1 ∧ d.f1 ≠ s.cfg.f1Const := ⟨h1, hne⟩
  rw [hks, plainLateCalls, if_pos hcall, defaultEffects_early_alu, defaultEffects_early_st]
  simp

/-- Settles O28: the call carries the register select and the ALU result of the word. -/
theorem loadmarCallsTheCollaborator : Obligations.LoadmarCallsTheCollaborator := by
  intro rsel aluf bs f2 lt ll next s
  exact completes_of_plain fun _ _ hne => plainNext_loadmar_call rfl hne.symm

/-- A ready TASK word finds a wakeup bit, and requests the highest one's task. -/
theorem plainNext_task_request {d : Microword} {s : State} (hready : ready d s = true) (h2 : d.f1 = 2)
    (hne : s.cfg.f1Const ≠ 2) : highestWakeup s.wakeup = some (plainNext d s).reqTask := by
  obtain ⟨-, -, -, -, -, hf1⟩ := (ready_iff _ _).mp hready
  have hconst : d.f1 ≠ s.cfg.f1Const := by
    rw [h2]
    exact hne.symm
  have hwake := task_finds_wakeup hf1 h2 hconst
  rw [plainNext_reqTask, if_pos ⟨h2, hconst⟩]
  cases hj : highestWakeup s.wakeup with
  | none => exact absurd ((highestWakeup_eq_none _).mp hj) hwake
  | some j => rfl

/-- Settles O29: the request is the arbitration's answer (O60), and the pipeline of notes/assumptions 9 moves it on. -/
theorem taskRowRequestsTheHighestWakeup : Obligations.TaskRowRequestsTheHighestWakeup := by
  intro rsel aluf bs f2 lt ll next s
  refine completes_of_plain fun hready _ hne => ?_
  obtain ⟨hset, habove⟩ := (highestWakeup_eq_some _ _).mp (plainNext_task_request hready rfl hne)
  exact ⟨hset, habove, plainNext_confTask _ _, plainNext_task _ _⟩

/-- A word that is no TASK word requests nothing, one that is no LOADMAR and no LOADMD makes no call in its late phase. -/
theorem plain_idle_f1 {d : Microword} {s : State} (h1 : d.f1 ≠ 1) (h2 : d.f1 ≠ 2) :
    (plainNext d s).reqTask = s.reqTask ∧ (plainNext d s).wrPend = false ∧ (plainNext d s).rdPend = false ∧
      (plainNext d s).wakeup = s.wakeup ∧
      (d.f2 ≠ 6 → s.confTask = s.task → (plainNext d s).calls = (defaultEffects.early d s).st.calls) := by
  refine ⟨?reqTask, plainNext_wrPend d s, plainNext_rdPend d s, plainNext_wakeup d s, fun h6 hstay => ?calls⟩
  case reqTask => rw [plainNext_reqTask, if_neg (fun h => h2 h.1)]
  case calls =>
    obtain ⟨-, -, hcalls⟩ := plainNext_stay d s hstay
    rw [hcalls, plainLateCalls, if_neg (fun h => h6 h.1), if_neg (fun h => h1 h.1)]
    rfl

/-- Settles O31: NONE and BLOCK are neither TASK nor LOADMAR. -/
theorem idleF1RowsAddNothing : Obligations.IdleF1RowsAddNothing := by
  intro rsel aluf bs f2 lt ll next s
  exact ⟨completes_of_plain fun _ _ _ => plain_idle_f1 (by simp [instrFields]) (by simp [instrFields]),
    completes_of_plain fun _ _ _ => plain_idle_f1 (by simp [instrFields]) (by simp [instrFields])⟩

/-! ## F2 rows -/

theorem next_or_bit (next : MicroAddr) (p : Prop) [Decidable p] :
    next ||| (if p then 1 else 0) = if p then next ||| 1 else next := by
  split <;> simp

theorem getLsbD_fifteen (v : Word) : v.getLsbD 15 = decide (32768 ≤ v.toNat) := by
  rw [BitVec.getLsbD, Nat.testBit_eq_decide_div_mod_eq, decide_eq_decide]
  omega

/-- The branch bits of a word that is off the constant value of F2 (R221 to R225). -/
theorem plainBits_of_ne {d : Microword} {s : State} (h : s.cfg.f2Const ≠ d.f2) :
    plainBits d s =
      if d.f2 = 1 then (if plainBus d s = 0 then 1 else 0)
      else if d.f2 = 2 then (if (shifterOut d.f1 s.l s.t false).getLsbD 15 then 1 else 0)
      else if d.f2 = 3 then (if shifterOut d.f1 s.l s.t false = 0 then 1 else 0)
      else if d.f2 = 4 then (plainBus d s).extractLsb' 0 10
      else if d.f2 = 5 then (if s.laluc0 then 1 else 0)
      else 0 := if_neg h.symm

/-- NONE, LOADMD and CONST inject nothing, the constant value neither. -/
theorem plainBits_idle {d : Microword} {s : State} (h : d.f2 = 0 ∨ d.f2 = 6 ∨ d.f2 = 7) : plainBits d s = 0 := by
  unfold plainBits
  obtain h | h | h := h <;> rw [h] <;> split <;> rfl

/-- The next address of a word with default entries where no switch is due, given its branch bits. -/
theorem plainNext_branch {d : Microword} {s : State} {bits : MicroAddr} (hstay : s.confTask = s.task)
    (hbits : plainBits d s = bits) : (plainNext d s).mpc = d.next ||| bits ∧ (plainNext d s).page = s.page := by
  obtain ⟨hmpc, hpage, -⟩ := plainNext_stay d s hstay
  exact ⟨by rw [hmpc, hbits], hpage⟩

/-- A row that branches under a condition. -/
theorem plainNext_branch_if {d : Microword} {s : State} {p : Prop} [Decidable p] (hstay : s.confTask = s.task)
    (hbits : plainBits d s = if p then 1 else 0) :
    (plainNext d s).mpc = (if p then d.next ||| 1 else d.next) ∧ (plainNext d s).page = s.page := by
  obtain ⟨hmpc, hpage⟩ := plainNext_branch hstay hbits
  exact ⟨hmpc.trans (next_or_bit _ _), hpage⟩

/-- A row that injects nothing. -/
theorem plainNext_no_branch {d : Microword} {s : State} (hstay : s.confTask = s.task) (h : d.f2 = 0 ∨ d.f2 = 6 ∨ d.f2 = 7) :
    (plainNext d s).mpc = d.next ∧ (plainNext d s).page = s.page := by
  obtain ⟨hmpc, hpage⟩ := plainNext_branch hstay (plainBits_idle h)
  exact ⟨hmpc.trans (by simp), hpage⟩

/-- LOADMD's call is the last of a word that ends without a switch. -/
theorem plainNext_loadmd_call {d : Microword} {s : State} (hstay : s.confTask = s.task) (h6 : d.f2 = 6)
    (hne : s.cfg.f2Const ≠ d.f2) :
    ∃ earlier, (plainNext d s).calls = .writeMem (defaultEffects.early d s).bus :: earlier := by
  obtain ⟨-, -, hcalls⟩ := plainNext_stay d s hstay
  have hcall : d.f2 = 6 ∧ d.f2 ≠ s.cfg.f2Const := ⟨h6, hne.symm⟩
  rw [plainLateCalls, if_pos hcall] at hcalls
  rw [defaultEffects_early_bus]
  exact ⟨_, hcalls⟩

theorem low10_eq (v : Word) : v.extractLsb' 0 10 = BitVec.ofNat 10 (v.toNat % 1024) := by
  apply BitVec.eq_of_toNat_eq
  simp

/-- Settles O32: the branch bits row by row, ORed into NEXT. -/
theorem f2RowsBranch : Obligations.F2RowsBranch := by
  intro rsel aluf bs f1 lt ll next s hstay
  refine ⟨completes_of_plain fun _ _ => ?none, completes_of_plain fun _ _ hne => ?buseq0,
    completes_of_plain fun _ _ hne => ?shlt0, completes_of_plain fun _ _ hne => ?sheq0,
    completes_of_plain fun _ _ hne => ?bus, completes_of_plain fun _ _ hne => ?alucy,
    completes_of_plain fun _ _ hne => ?loadmd, completes_of_plain fun _ _ => ?const⟩
  case none => exact plainNext_no_branch hstay (.inl rfl)
  case buseq0 =>
    simp only [defaultEffects_early_bus]
    exact plainNext_branch_if hstay ((plainBits_of_ne hne).trans rfl)
  case shlt0 =>
    refine plainNext_branch_if hstay ((plainBits_of_ne hne).trans ?_)
    change (if (shifterOut f1 s.l s.t false).getLsbD 15 = true then (1 : MicroAddr) else 0) = _
    simp only [getLsbD_fifteen, decide_eq_true_eq]
  case sheq0 => exact plainNext_branch_if hstay ((plainBits_of_ne hne).trans rfl)
  case bus =>
    rw [defaultEffects_early_bus]
    exact plainNext_branch hstay ((plainBits_of_ne hne).trans (low10_eq _))
  case alucy => exact plainNext_branch_if hstay ((plainBits_of_ne hne).trans rfl)
  case loadmd =>
    obtain ⟨hmpc, hpage⟩ := plainNext_no_branch (d := ⟨rsel, aluf, bs, f1, 6, lt, ll, next⟩) hstay (.inr (.inl rfl))
    exact ⟨hmpc, hpage, plainNext_loadmd_call hstay rfl hne⟩
  case const => exact plainNext_no_branch hstay (.inr (.inr rfl))

/-! ## The empty mask, and the words after a TASK word -/

/-- A TASK word that reaches its arbitration with an empty mask takes the fatal error of R272 from its start state. -/
theorem exec_task_empty_mask {i : Instr} {s : State} {c : Cyc} (hrun : s.run = .running)
    (hstall : stalled (instrFields i) s = false) (h2 : (instrFields i).f1 = 2) (hne : (instrFields i).f1 ≠ s.cfg.f1Const)
    (hc : beforeEarlyF1 (instrFields i) s = .ok c) (hin : InCycle (instrFields i) s c) (hmpc : c.st.mpc = s.mpc)
    (hmask : c.st.wakeup = 0) (hslot : plainSlot s .f1 2 = true) :
    exec i s = .next { s with run := .halted ⟨.emptyWakeupMask, s.task, s.mpc, .f1, 2⟩ } := by
  have hdefault : resolve c.st.cfg .early c.st.task .f1 c.d.f1.toNat = .byDefault := by
    rw [hin.cfg, hin.task, hin.d, h2]
    exact resolve_of_plainSlot hslot .early
  have harb : arbitrate c = .error (.fatal (emptyMaskFatal c.st)) := by
    obtain ⟨j, hj, -⟩ | ⟨-, harb⟩ := arbitrate_cases c
    · rw [(highestWakeup_eq_none _).mpr hmask] at hj
      cases hj
    · exact harb
  have hstop : runF1 .early c = .error (.fatal (emptyMaskFatal c.st)) := by
    unfold runF1
    rw [if_neg (by rw [hin.d, hin.cfg]; exact hne)]
    change dispatch _ _ _ _ _ = _
    rw [dispatch_default hdefault, ← harb, hin.d, h2]
    rfl
  have hbody : cycleBody (instrFields i) s = .error (.fatal (emptyMaskFatal c.st)) := by
    unfold cycleBody
    rw [earlyPhase_eq, hc]
    change ((runF1 .early c) >>= _) = _
    rw [hstop]
    rfl
  rw [exec_of_running hrun hstall, hbody, cycleOutcome, takeFatal, emptyMaskFatal, hin.task, hmpc]

theorem beforeEarlyF1_frame {d : Microword} {s : State} {c : Cyc} (h : beforeEarlyF1 d s = .ok c) :
    PortFrame (startCycle d s) c := by
  unfold beforeEarlyF1 at h
  obtain ⟨c0, h0, h⟩ := bind_ok h
  obtain ⟨c1, h1, h2⟩ := bind_ok h
  exact ((readPerform_frame h0).trans (constantPath_frame c0)).trans ((runF2_frame h1).trans (runBs_frame h2))

/-- The part before the F1 step of a word whose F2 and BS have their default entries leaves the wakeup mask. -/
theorem beforeEarlyF1_default {d : Microword} {s : State} (hread : readReady s = true) (hf2 : F2Default d s .early)
    (hbs : BsDefault d s .early) : beforeEarlyF1 d s = .ok (bsEarlyEffect (onBus d s)) := by
  obtain ⟨c0, h0, hbus⟩ := readPerform_eq (d := d) hread
  have h1 := runF2_early_default (onBus_inCycle d s) hf2
  exact andThen_ok h0 (andThen_ok (hbus ▸ h1) (runBs_early_default (onBus_inCycle d s) hbs))

/-- Settles O30: the second clause is the general case, and with default entries nothing before the arbitration touches the
mask. -/
theorem emptyWakeupMaskIsFatal : Obligations.EmptyWakeupMaskIsFatal := by
  intro rsel aluf bs f2 lt ll next s hrun hstall hne
  have hgeneral : ∀ c, beforeEarlyF1 ⟨rsel, aluf, bs, 2, f2, lt, ll, next⟩ s = .ok c → c.st.wakeup = 0 →
      plainSlot s .f1 2 = true → exec (.f1Task rsel aluf bs f2 lt ll next) s =
        .next { s with run := .halted ⟨.emptyWakeupMask, s.task, s.mpc, .f1, 2⟩ } := by
    intro c hc hmask hslot
    have f := beforeEarlyF1_frame hc
    exact exec_task_empty_mask hrun hstall rfl hne.symm hc ((InCycle.start _ _).of_frame f) f.mpc hmask hslot
  refine ⟨fun hread hf2 hbs hplain hmask => ?_, hgeneral⟩
  obtain ⟨pf2, pbs, pf1⟩ := (plain_iff _ _).mp hplain
  refine hgeneral _ (beforeEarlyF1_default hread (f2Default_of_ready hf2 pf2 _) (bsDefault_of_ready hbs pbs _)) hmask ?_
  exact pf1.resolve_left hne.symm

/-- What the next address leaves after any ready word (R254 to R256). -/
theorem exec_ready_switch {i : Instr} {s : State} (hs : s.WellFormed) (hready : ready (instrFields i) s = true) :
    ∃ u, exec i s = .next u ∧ u.task = s.confTask ∧
      (s.confTask ≠ s.task → u.mpc = at16 s.taskMpc s.confTask ∧ u.page = at16 s.taskPage s.confTask) := by
  obtain ⟨c, c', he, hl, -, hexec⟩ := readyWordsComplete i s hs hready
  have keep := phases_keep he hl
  refine ⟨_, hexec, by rw [nextAddress_task, commit_confTask, keep.confTask], fun hne => ?_⟩
  have hswitch : (commit (instrFields i) (cycleAlu c) c.bus c'.st).confTask ≠
      (commit (instrFields i) (cycleAlu c) c.bus c'.st).task := by
    rw [commit_confTask, commit_task, keep.confTask, keep.task]
    exact hne
  obtain ⟨-, hmpc, hpage, -⟩ := nextAddress_switch (instrFields i) c'.nmod _ hswitch
  rw [hmpc, hpage, commit_taskMpc, commit_taskPage, commit_confTask, keep.taskMpc, keep.taskPage, keep.confTask]
  exact ⟨rfl, rfl⟩

/-- Settles O53: the TASK word confirms the arbitrated task and stays in its own (O12, O29); the next word, whatever it is, ends
with the switch to the confirmed task, whose cells no word of another task writes. -/
theorem taskSwitchTakesOneMoreWord : Obligations.TaskSwitchTakesOneMoreWord := by
  intro rsel aluf bs f2 lt ll next s j b hs hstay hready hplain hne hb
  let i : Instr := .f1Task rsel aluf bs f2 lt ll next
  have hexec : exec i s = .next (plainNext (instrFields i) s) := plainWordsRefineTheirRules i s hready hplain
  have hrequest : some b = some (plainNext (instrFields i) s).reqTask :=
    hb.symm.trans (plainNext_task_request (d := instrFields i) hready rfl hne)
  have hconf : (plainNext (instrFields i) s).confTask = b :=
    (plainNext_confTask _ _).trans (Option.some_inj.mp hrequest).symm
  obtain ⟨-, -, -, -, -, -, -, hsame⟩ := execFrame i s _ hexec
  obtain ⟨htask, htaskMpc, htaskPage⟩ := hsame hstay
  refine ⟨_, hexec, htask, fun hreadyj => ?_⟩
  obtain ⟨v, hv, hvtask, hvswitch⟩ := exec_ready_switch (exec_wf hs hexec) hreadyj
  refine ⟨v, hv, hvtask.trans hconf, fun hbne => ?_⟩
  have hother := hvswitch (by rw [hconf, htask]; exact hbne)
  rwa [hconf, htaskMpc, htaskPage] at hother

end Sys2Proof.Machine
end

section
/-! PROOFS. Words of which one field runs an installed operation and the others have their default entries (R244, R245). -/

namespace Sys2Proof.Machine

/-! ## Installed and empty entries -/

theorem dispatch_installed {ph : Phase} {fam : Family} {code : Nat} {dflt : Cyc → Except Stop Cyc} {acts : List Act}
    {d : Microword} {s : State} {c : Cyc} (hc : InCycle d s c)
    (h : lookupSlot s.cfg.table ⟨ph, s.task, fam, code⟩ = some (.op acts)) :
    dispatch ph fam code dflt c = runActs ph fam acts c := by
  unfold dispatch resolve
  rw [hc.cfg, hc.task, h]

theorem dispatch_absent {ph : Phase} {fam : Family} {code : Nat} {dflt : Cyc → Except Stop Cyc}
    {d : Microword} {s : State} {c : Cyc} (hc : InCycle d s c) (h : resolve s.cfg ph s.task fam code = .absent) :
    dispatch ph fam code dflt c = .ok c := by
  unfold dispatch
  rw [hc.cfg, hc.task, h]

/-- An explicit empty entry is absent. -/
theorem resolve_of_empty_entry {s : State} {ph : Phase} {fam : Family} {code : Nat}
    (h : lookupSlot s.cfg.table ⟨ph, s.task, fam, code⟩ = some .absent) :
    resolve s.cfg ph s.task fam code = .absent := by
  unfold resolve
  rw [h]

/-- A slot that is filled in the other phase only is absent in this one, where it has no default entry. -/
theorem resolve_of_other_phase {s : State} {ph : Phase} {fam : Family} {code : Nat} {e : Entry}
    (hcode : taskSpecific fam code = true) (h : lookupSlot s.cfg.table ⟨ph, s.task, fam, code⟩ = none)
    (hother : lookupSlot s.cfg.table ⟨otherPhase ph, s.task, fam, code⟩ = some e) :
    resolve s.cfg ph s.task fam code = .absent := by
  unfold resolve
  simp only [h, hcode, if_true, hother]

section runs

variable {ph : Phase} {acts : List Act} {d : Microword} {s : State} {c : Cyc} (hc : InCycle d s c)

include hc

theorem runF1_installed (hne : d.f1 ≠ s.cfg.f1Const)
    (h : lookupSlot s.cfg.table ⟨ph, s.task, .f1, d.f1.toNat⟩ = some (.op acts)) : runF1 ph c = runActs ph .f1 acts c := by
  unfold runF1
  rw [hc.d, hc.cfg, if_neg hne]
  cases ph <;> exact dispatch_installed hc h

theorem runF1_absent (hne : d.f1 ≠ s.cfg.f1Const) (h : resolve s.cfg ph s.task .f1 d.f1.toNat = .absent) :
    runF1 ph c = .ok c := by
  unfold runF1
  rw [hc.d, hc.cfg, if_neg hne]
  cases ph <;> exact dispatch_absent hc h

theorem runF2_installed (hne : d.f2 ≠ s.cfg.f2Const)
    (h : lookupSlot s.cfg.table ⟨ph, s.task, .f2, d.f2.toNat⟩ = some (.op acts)) : runF2 ph c = runActs ph .f2 acts c := by
  unfold runF2
  rw [hc.d, hc.cfg, if_neg hne]
  cases ph <;> exact dispatch_installed hc h

theorem runF2_absent (hne : d.f2 ≠ s.cfg.f2Const) (h : resolve s.cfg ph s.task .f2 d.f2.toNat = .absent) :
    runF2 ph c = .ok c := by
  unfold runF2
  rw [hc.d, hc.cfg, if_neg hne]
  cases ph <;> exact dispatch_absent hc h

theorem runBs_installed (hsel : constSel s.cfg d = false)
    (h : lookupSlot s.cfg.table ⟨ph, s.task, .bs, d.bs.toNat⟩ = some (.op acts)) : runBs ph c = runActs ph .bs acts c := by
  unfold runBs
  rw [hc.d, hc.cfg, hsel]
  cases ph <;> exact dispatch_installed hc h

theorem runBs_absent (hsel : constSel s.cfg d = false) (h : resolve s.cfg ph s.task .bs d.bs.toNat = .absent) :
    runBs ph c = .ok c := by
  unfold runBs
  rw [hc.d, hc.cfg, hsel]
  cases ph <;> exact dispatch_absent hc h

end runs

/-- An F2 field without an early entry of its own does nothing early: no F2 value has a default early operation (R220). -/
theorem runF2_early_none {d : Microword} {s : State} {c : Cyc} {e : Entry} (hc : InCycle d s c) (hne : d.f2 ≠ s.cfg.f2Const)
    (h : lookupSlot s.cfg.table ⟨.early, s.task, .f2, d.f2.toNat⟩ = none)
    (hother : lookupSlot s.cfg.table ⟨.late, s.task, .f2, d.f2.toNat⟩ = some e) : runF2 .early c = .ok c := by
  cases hcode : taskSpecific .f2 d.f2.toNat with
  | true => exact runF2_absent hc hne (resolve_of_other_phase hcode h hother)
  | false =>
    refine runF2_early_default hc (.inr ?_)
    unfold resolve
    simp [h, hcode]

/-! ## The effects of a word of which one field is installed -/

/-- F1 has effects of its own, the other fields those of their default entries. -/
def f1Effects (early late : Cyc → Cyc) : Effects := { defaultEffects with f1Early := early, f1Late := late }

/-- F2 has effects of its own. -/
def f2Effects (early late : Cyc → Cyc) : Effects := { defaultEffects with f2Early := early, f2Late := late }

/-- BS has effects of its own. -/
def bsEffects (early late : Cyc → Cyc) : Effects := { defaultEffects with bsEarly := early, bsLate := late }

section effectsRun

variable {d : Microword} {s : State} {early late : Cyc → Cyc} (hready : ready d s = true)

include hready

theorem f1Effects_run (pbs : constSel s.cfg d = true ∨ plainSlot s .bs d.bs.toNat = true)
    (pf2 : d.f2 = s.cfg.f2Const ∨ plainSlot s .f2 d.f2.toNat = true)
    (hearly : ∀ c, InCycle d s c → runF1 .early c = .ok (early c))
    (hlate : ∀ c, InCycle d s c → runF1 .late c = .ok (late c)) : (f1Effects early late).Run d s := by
  obtain ⟨-, -, -, hf2, hbs, -⟩ := (ready_iff _ _).mp hready
  constructor
  case f2Early => exact fun c hc => runF2_early_default hc (f2Default_of_ready hf2 pf2 _)
  case bsEarly => exact fun c hc => runBs_early_default hc (bsDefault_of_ready hbs pbs _)
  case f1Early => exact fun c hc _ => hearly c hc
  case f1Late => exact hlate
  case f2Late => exact fun c hc => runF2_late_default hc (f2Default_of_ready hf2 pf2 _)
  case bsLate => exact fun c hc => runBs_late_default hc (bsDefault_of_ready hbs pbs _)
  case wakeup => exact fun c => rfl

theorem f2Effects_run (pbs : constSel s.cfg d = true ∨ plainSlot s .bs d.bs.toNat = true)
    (pf1 : d.f1 = s.cfg.f1Const ∨ plainSlot s .f1 d.f1.toNat = true)
    (hearly : ∀ c, InCycle d s c → runF2 .early c = .ok (early c))
    (hlate : ∀ c, InCycle d s c → runF2 .late c = .ok (late c))
    (hwakeup : ∀ c, (early c).st.wakeup = c.st.wakeup) : (f2Effects early late).Run d s := by
  obtain ⟨-, -, -, -, hbs, hf1⟩ := (ready_iff _ _).mp hready
  constructor
  case f2Early => exact hearly
  case bsEarly => exact fun c hc => runBs_early_default hc (bsDefault_of_ready hbs pbs _)
  case f1Early =>
    exact fun c hc hw => runF1_early_default hc (f1Default_of_ready hf1 pf1 _)
      fun h2 hne => hw ▸ task_finds_wakeup hf1 h2 hne
  case f1Late => exact fun c hc => runF1_late_default hc (f1Default_of_ready hf1 pf1 _)
  case f2Late => exact hlate
  case bsLate => exact fun c hc => runBs_late_default hc (bsDefault_of_ready hbs pbs _)
  case wakeup => exact hwakeup

theorem bsEffects_run (pf1 : d.f1 = s.cfg.f1Const ∨ plainSlot s .f1 d.f1.toNat = true)
    (pf2 : d.f2 = s.cfg.f2Const ∨ plainSlot s .f2 d.f2.toNat = true)
    (hearly : ∀ c, InCycle d s c → runBs .early c = .ok (early c))
    (hlate : ∀ c, InCycle d s c → runBs .late c = .ok (late c))
    (hwakeup : ∀ c, (early c).st.wakeup = c.st.wakeup) : (bsEffects early late).Run d s := by
  obtain ⟨-, -, -, hf2, -, hf1⟩ := (ready_iff _ _).mp hready
  constructor
  case f2Early => exact fun c hc => runF2_early_default hc (f2Default_of_ready hf2 pf2 _)
  case bsEarly => exact hearly
  case f1Early =>
    exact fun c hc hw => runF1_early_default hc (f1Default_of_ready hf1 pf1 _)
      fun h2 hne => hw ▸ task_finds_wakeup hf1 h2 hne
  case f1Late => exact fun c hc => runF1_late_default hc (f1Default_of_ready hf1 pf1 _)
  case f2Late => exact fun c hc => runF2_late_default hc (f2Default_of_ready hf2 pf2 _)
  case bsLate => exact hlate
  case wakeup => exact hwakeup

end effectsRun

/-! ## The end of a cycle, field by field -/

section cycleEndFields

variable (d : Microword) (c c' : Cyc)

theorem cycleEnd_r : (cycleEnd d c c').r = c'.st.r := (nextAddress_r _ _ _).trans (commit_r _ _ _ _)
theorem cycleEnd_sbank : (cycleEnd d c c').sbank = c'.st.sbank := (nextAddress_sbank _ _ _).trans (commit_sbank _ _ _ _)
theorem cycleEnd_wrPend : (cycleEnd d c c').wrPend = c'.st.wrPend := (nextAddress_wrPend _ _ _).trans (commit_wrPend _ _ _ _)
theorem cycleEnd_wrAddr : (cycleEnd d c c').wrAddr = c'.st.wrAddr := (nextAddress_wrAddr _ _ _).trans (commit_wrAddr _ _ _ _)
theorem cycleEnd_rdPend : (cycleEnd d c c').rdPend = c'.st.rdPend := (nextAddress_rdPend _ _ _).trans (commit_rdPend _ _ _ _)
theorem cycleEnd_rdAddr : (cycleEnd d c c').rdAddr = c'.st.rdAddr := (nextAddress_rdAddr _ _ _).trans (commit_rdAddr _ _ _ _)
theorem cycleEnd_wakeup : (cycleEnd d c c').wakeup = c'.st.wakeup := (nextAddress_wakeup _ _ _).trans (commit_wakeup _ _ _ _)
theorem cycleEnd_reqTask : (cycleEnd d c c').reqTask = c'.st.reqTask :=
  (nextAddress_reqTask _ _ _).trans (commit_reqTask _ _ _ _)

/-- Without an L load the commit leaves the S registers. -/
theorem cycleEnd_sregs (h : d.loadl = false) : (cycleEnd d c c').sregs = c'.st.sregs := by
  rw [cycleEnd, nextAddress_sregs, commit_sregs, h]
  rfl

/-- The calls of the switch evaluation come after those of the word. -/
theorem cycleEnd_calls : ∃ ks, (cycleEnd d c c').calls = ks ++ c'.st.calls := by
  obtain ⟨ks, hks⟩ := switchEvaluation_calls
    { commit d (cycleAlu c) c.bus c'.st with mpc := d.next ||| c'.nmod }
  exact ⟨ks, hks.trans (congrArg (ks ++ ·) (commit_calls _ _ _ _))⟩

/-- Where no switch is due, step 10 leaves the word's own next address, page and calls. -/
theorem cycleEnd_stay (h : c'.st.confTask = c'.st.task) :
    (cycleEnd d c c').mpc = d.next ||| c'.nmod ∧ (cycleEnd d c c').page = c'.st.page ∧
      (cycleEnd d c c').calls = c'.st.calls := by
  rw [cycleEnd, nextAddress_stay _ _ _ (by rw [commit_confTask, commit_task, h])]
  exact ⟨rfl, commit_page _ _ _ _, commit_calls _ _ _ _⟩

end cycleEndFields

theorem Effects.Run.end_store {E : Effects} {d : Microword} {s : State} (h : E.Run d s) (hread : readReady s = true) :
    (E.end d s).store = (writeBack s (cycleAlu (E.early d s)).alu).store :=
  cycleEnd_store (h.earlyPhase hread).1 (h.latePhase hread)

/-- The cycle between the late F1 and the late F2 step. -/
theorem Effects.Run.f1Late_inCycle {E : Effects} {d : Microword} {s : State} (h : E.Run d s) (hread : readReady s = true) :
    InCycle d s (E.f1Late (aluPhase (E.early d s))) := by
  obtain ⟨-, hc⟩ := h.earlyPhase hread
  exact hc.aluPhase.of_frame (runF1_frame (h.f1Late _ hc.aluPhase))

/-- The cycle between the late F2 and the late BS step. -/
theorem Effects.Run.f2Late_inCycle {E : Effects} {d : Microword} {s : State} (h : E.Run d s) (hread : readReady s = true) :
    InCycle d s (E.f2Late (E.f1Late (aluPhase (E.early d s)))) := by
  have hc := h.f1Late_inCycle hread
  exact hc.of_frame (runF2_frame (h.f2Late _ hc))

/-- A word with these effects after which no switch is due. -/
theorem Effects.Run.end_stay {E : Effects} {d : Microword} {s : State} (h : E.Run d s) (hread : readReady s = true)
    (hstay : s.confTask = s.task) :
    (E.end d s).mpc = d.next ||| (E.late d s).nmod ∧ (E.end d s).page = (E.late d s).st.page ∧
      (E.end d s).calls = (E.late d s).st.calls := by
  have keep := phases_keep (h.earlyPhase hread).1 (h.latePhase hread)
  exact cycleEnd_stay _ _ _ (by rw [keep.confTask, keep.task, hstay])

/-- The late F2 and BS steps of default entries write R and record a call, and nothing else of the state. -/
theorem bsLateEffect_f2LateEffect_st (c : Cyc) :
    (bsLateEffect (f2LateEffect c)).st =
      { c.st with
        r := if c.d.bs = 1 ∧ constSel c.st.cfg c.d = false then set32 c.st.r c.rsel (quirkValue c.st.cfg c.rsel c.shifter)
          else c.st.r
        calls := (if c.d.f2 = 6 ∧ c.d.f2 ≠ c.st.cfg.f2Const then [.writeMem c.bus] else []) ++ c.st.calls } := rfl

/-- Where LOADR is not dispatched, the default BS operation writes no R register. -/
theorem bsLateEffect_r_of_no_loadr {d : Microword} {s : State} {c : Cyc} (hc : InCycle d s c)
    (h : d.bs ≠ 1 ∨ constSel s.cfg d = true) : (bsLateEffect c).st.r = c.st.r := by
  refine if_neg fun ⟨h1, hsel⟩ => ?_
  rw [hc.d] at h1
  rw [hc.cfg, hc.d] at hsel
  obtain hbs | hconst := h
  · exact hbs h1
  · rw [hconst] at hsel
    cases hsel

theorem bsLateEffect_f2LateEffect_nmod (c : Cyc) : (bsLateEffect (f2LateEffect c)).nmod = c.nmod ||| f2Bits c := rfl

/-- The state before the early F1 step, where F2 and BS have their default entries. -/
theorem bsEarlyEffect_onBus_st (d : Microword) (s : State) :
    (bsEarlyEffect (onBus d s)).st = { s with rdPend := false, calls := plainEarlyCalls d s ++ s.calls } := rfl

theorem f1Effects_early (early late : Cyc → Cyc) (d : Microword) (s : State) :
    (f1Effects early late).early d s = early (bsEarlyEffect (onBus d s)) := rfl

theorem f1Effects_late (early late : Cyc → Cyc) (d : Microword) (s : State) :
    (f1Effects early late).late d s =
      bsLateEffect (f2LateEffect (late (aluPhase ((f1Effects early late).early d s)))) := rfl

/-! ## Installed F1 operations -/

/-- The installed request of a microcode-RAM access (R64, R66). -/
def requestEffect (isWrite : Bool) (c : Cyc) : Cyc := mapState (if isWrite then requestURamWrite else requestURamRead) c

theorem runActs_andBus_lit (fam : Family) (v : Word) (c : Cyc) :
    runActs .early fam [.andBus (.lit v)] c = .ok (andBus v c) := rfl

theorem runActs_request {isWrite : Bool} {c : Cyc} (h : ramRelated c.st.cfg c.st.task = true) :
    runActs .late .f1 [if isWrite then .requestURamWrite else .requestURamRead] c = .ok (requestEffect isWrite c) := by
  cases isWrite <;> simp [runActs, runAct, requestEffect, h]

/-- The requests after a word with this F1 effect: only the one that the effect makes. -/
theorem requestEffect_end {early : Cyc → Cyc} {d : Microword} {s : State} {c : Cyc} (isWrite : Bool)
    (hc : (f1Effects early (requestEffect isWrite)).early d s = c) (hrd : c.st.rdPend = false) (ht : c.st.t = s.t)
    {u : State} (hu : (f1Effects early (requestEffect isWrite)).end d s = u) :
    (isWrite = true → u.wrPend = true ∧ u.wrAddr = s.t ∧ u.rdPend = false) ∧
      (isWrite = false → u.rdPend = true ∧ u.rdAddr = s.t ∧ u.wrPend = false) := by
  subst hu
  rw [Effects.end, cycleEnd_wrPend, cycleEnd_wrAddr, cycleEnd_rdPend, cycleEnd_rdAddr, f1Effects_late, hc,
    bsLateEffect_f2LateEffect_st]
  refine ⟨fun hw => ?_, fun hr => ?_⟩
  · subst hw
    simp [requestEffect, mapState, hrd, ht]
  · subst hr
    simp [requestEffect, mapState, ht]

/-- Settles O34: the early value is ANDed to the bus of the default source; the late request is the last writer of the pending
records. -/
theorem f1SlotsRunInstalledOperations : Obligations.F1SlotsRunInstalledOperations := by
  intro i s v isWrite _ hne hram pbs pf2 hearly hlate
  refine completes_of_effects fun _ hready => ?_
  obtain ⟨-, -, hread, -⟩ := (ready_iff _ _).mp hready
  have hrun : (f1Effects (andBus v) (requestEffect isWrite)).Run (instrFields i) s := by
    refine f1Effects_run hready pbs pf2 (fun c hc => ?early) (fun c hc => ?late)
    case early => exact (runF1_installed hc hne hearly).trans (runActs_andBus_lit _ _ _)
    case late => exact (runF1_installed hc hne hlate).trans (runActs_request (by rw [hc.cfg, hc.task]; exact hram))
  have hstore := hrun.end_store hread
  obtain ⟨hwrite, hreadReq⟩ := requestEffect_end (d := instrFields i) (s := s) (early := andBus v) isWrite rfl rfl rfl rfl
  refine ⟨_, hrun, ?bus, hwrite, hreadReq, hstore, fun hp => ?keep, ?sbank, ?reqTask, ?wakeup, fun hbs => ?r⟩
  case bus => exact congrArg (· &&& v) (bus_bsEarlyEffect_onBus _ _)
  case keep => rw [hstore, writeBack_of_not_pending hp]
  case sbank =>
    rw [Effects.end, cycleEnd_sbank, f1Effects_late, bsLateEffect_f2LateEffect_st]
    cases isWrite <;> exact aluPhase_sbank _
  case reqTask =>
    rw [Effects.end, cycleEnd_reqTask, f1Effects_late, bsLateEffect_f2LateEffect_st]
    cases isWrite <;> exact aluPhase_reqTask _
  case wakeup =>
    rw [Effects.end, cycleEnd_wakeup, f1Effects_late, bsLateEffect_f2LateEffect_st]
    cases isWrite <;> exact aluPhase_wakeup _
  case r =>
    rw [Effects.end, cycleEnd_r, f1Effects_late]
    refine (bsLateEffect_r_of_no_loadr (hrun.f2Late_inCycle hread) hbs).trans ?_
    cases isWrite <;> exact aluPhase_r _

/-! ## Installed S-bank and page operations -/

theorem runActs_setSBank_lit {c : Cyc} (fam : Family) (k : Task) {b : Word} (h : b.toNat < c.st.cfg.sBanks) :
    runActs .late fam [.setSBank (.lit (k.setWidth 16)) (.lit b)] c = .ok (mapState (setSBank · k b.toNat) c) := by
  have hk : (k.setWidth 16).extractLsb' 0 4 = k := by
    apply BitVec.eq_of_toNat_eq
    simp [k.isLt]
  simp [runActs, runAct, evalVal, bind, Except.bind, h, hk]

theorem runActs_setPage_lit (fam : Family) (p : Word) (c : Cyc) :
    runActs .late fam [.setPage (.lit p)] c = .ok (mapState (setPage · p.toNat) c) := rfl

/-- Settles O36: the selector is set before the commit, so the L load goes to the new bank where it is the task's own. -/
theorem installedSetSBankSelectsTheBank : Obligations.InstalledSetSBankSelectsTheBank := by
  intro i s k b hcode hne hb pbs pf2 hearly hlate
  refine completes_of_effects fun hs hready => ?_
  obtain ⟨-, -, hread, -⟩ := (ready_iff _ _).mp hready
  have hrun : (f1Effects id (mapState (setSBank · k b.toNat))).Run (instrFields i) s := by
    refine f1Effects_run hready pbs pf2 (fun c hc => ?early) (fun c hc => ?late)
    case early => exact runF1_absent hc hne (resolve_of_other_phase (decide_eq_true hcode) hearly hlate)
    case late => exact (runF1_installed hc hne hlate).trans (runActs_setSBank_lit _ _ (by rw [hc.cfg]; exact hb))
  have hsbank : ((f1Effects id (mapState (setSBank · k b.toNat))).end (instrFields i) s).sbank = set16 s.sbank k b.toNat := by
    rw [Effects.end, cycleEnd_sbank, f1Effects_late, bsLateEffect_f2LateEffect_st]
    exact congrArg (set16 · k b.toNat) (aluPhase_sbank _)
  refine ⟨_, hrun, by rw [hsbank, at16_set16_same], fun j hj => by rw [hsbank, at16_set16_other _ _ hj], fun hload hram => ?own⟩
  have hown := cycleEnd_readS_own hs (hrun.earlyPhase hread).1 (hrun.latePhase hread) hload hram
  rw [← Effects.end, hsbank, at16_set16] at hown
  simpa only [eq_comm] using hown

/-- The branch bits of a cycle that has the bus, the shifter and LALUC0 of a word with default entries. -/
theorem f2Bits_eq_plainBits {d : Microword} {s : State} {c : Cyc} (hc : InCycle d s c) (hbus : c.bus = plainBus d s)
    (hshifter : c.shifter = shifterOut d.f1 s.l s.t false) (hcarry : c.st.laluc0 = s.laluc0) :
    f2Bits c = plainBits d s := by
  unfold f2Bits plainBits
  rw [hc.d, hc.cfg, hbus, hshifter, hcarry]

/-- Settles O37: the page is set before step 10 takes the next address. -/
theorem installedSetPageMovesTheNextFetch : Obligations.InstalledSetPageMovesTheNextFetch := by
  intro i s p hcode hne hstay hp pbs pf2 hearly hlate
  refine completes_of_effects fun _ hready => ?_
  obtain ⟨-, -, hread, -⟩ := (ready_iff _ _).mp hready
  have hrun : (f1Effects id (mapState (setPage · p.toNat))).Run (instrFields i) s := by
    refine f1Effects_run hready pbs pf2 (fun c hc => ?early) (fun c hc => ?late)
    case early => exact runF1_absent hc hne (resolve_of_other_phase (decide_eq_true hcode) hearly hlate)
    case late => exact (runF1_installed hc hne hlate).trans (runActs_setPage_lit _ _ _)
  refine ⟨_, hrun, ?_⟩
  obtain ⟨hmpc, hpage, -⟩ := hrun.end_stay hread hstay
  have hbits := f2Bits_eq_plainBits (hrun.f1Late_inCycle hread) (bus_bsEarlyEffect_onBus _ _)
    (aluPhase_shifter (bsEarlyEffect (onBus (instrFields i) s))) (aluPhase_laluc0 _)
  have hnmod : ((f1Effects id (mapState (setPage · p.toNat))).late (instrFields i) s).nmod = plainBits (instrFields i) s := by
    rw [f1Effects_late, bsLateEffect_f2LateEffect_nmod, ← hbits]
    exact BitVec.zero_or
  rw [fetchAddr, hmpc, hpage, hnmod, f1Effects_late, bsLateEffect_f2LateEffect_st]
  simp only [mapState, setPage_page, aluPhase_cfg, f1Effects_early, bsEarlyEffect_onBus_st, id, Nat.mod_eq_of_lt hp]

/-! ## An installed F1 operation that asks for memory -/

/-- Asks read_mem and writes the answer to a register (notes/assumptions 11). -/
def readMemToR (i : RegNum) (c : Cyc) : Cyc :=
  mapState (writeR · i c.st.input.readMem) (answered c.st.input.readMem (mapState (logCall · .readMem) c))

theorem runActs_readMemToR (fam : Family) (v : Word) (c : Cyc) :
    runActs .late fam [.ask .readMem, .writeR (.lit v) (.answer 0)] c = .ok (readMemToR (v.extractLsb' 0 5) c) := rfl

theorem readMemToR_st (i : RegNum) (c : Cyc) :
    (readMemToR i c).st =
      { c.st with r := set32 c.st.r i (quirkValue c.st.cfg i c.st.input.readMem), calls := .readMem :: c.st.calls } := rfl

theorem low5_eq (v : Word) : v.extractLsb' 0 5 = BitVec.ofNat 5 v.toNat := by
  apply BitVec.eq_of_toNat_eq
  simp

theorem input_congr {s u : State} (hinputs : u.inputs = s.inputs) (hticks : u.ticks = s.ticks) : u.input = s.input := by
  simp only [State.input, hinputs, hticks]

/-- What a word leaves whose late F1 operation puts the answer of read_mem into a register. -/
theorem readMemToR_end {i : RegNum} {d : Microword} {s : State} {c : Cyc} (hrun : (f1Effects id (readMemToR i)).Run d s)
    (hread : readReady s = true) (hc : (f1Effects id (readMemToR i)).early d s = c) (hcfg : c.st.cfg = s.cfg) (hr : c.st.r = s.r)
    (hreq : c.st.reqTask = s.reqTask) (hinput : c.st.input = s.input) :
    ((f1Effects id (readMemToR i)).end d s).reqTask = s.reqTask ∧
      (∃ later, ((f1Effects id (readMemToR i)).end d s).calls = later ++ .readMem :: c.st.calls) ∧
      (d.bs ≠ 1 ∨ constSel s.cfg d = true →
        ((f1Effects id (readMemToR i)).end d s).r = set32 s.r i (quirkValue s.cfg i s.input.readMem)) := by
  have hlate := hrun.f2Late_inCycle hread
  have hin : (aluPhase c).st.input = s.input := (input_congr (aluPhase_inputs c) (aluPhase_ticks c)).trans hinput
  obtain ⟨ks, hks⟩ := cycleEnd_calls d ((f1Effects id (readMemToR i)).early d s) ((f1Effects id (readMemToR i)).late d s)
  rw [Effects.end, cycleEnd_reqTask, hks, cycleEnd_r]
  refine ⟨?_, ?_, fun hbs => ?_⟩
  · rw [f1Effects_late, hc, bsLateEffect_f2LateEffect_st, readMemToR_st]
    exact (aluPhase_reqTask c).trans hreq
  · rw [f1Effects_late, hc, bsLateEffect_f2LateEffect_st, readMemToR_st, aluPhase_calls, ← List.append_assoc]
    exact ⟨_, rfl⟩
  · refine (bsLateEffect_r_of_no_loadr hlate hbs).trans ?_
    rw [hc]
    change (readMemToR i (aluPhase c)).st.r = _
    rw [readMemToR_st, hin, aluPhase_r, aluPhase_cfg, hr, hcfg]

/-- An installed F1 operation replaces the default one, TASK's request included (R217). -/
theorem f1_replaced {i : Instr} {s : State} {v : Word} (hne : (instrFields i).f1 ≠ s.cfg.f1Const)
    (pbs : constSel s.cfg (instrFields i) = true ∨ plainSlot s .bs (instrFields i).bs.toNat = true)
    (pf2 : (instrFields i).f2 = s.cfg.f2Const ∨ plainSlot s .f2 (instrFields i).f2.toNat = true)
    (hearly : lookupSlot s.cfg.table ⟨.early, s.task, .f1, (instrFields i).f1.toNat⟩ = some .absent)
    (hlate : lookupSlot s.cfg.table ⟨.late, s.task, .f1, (instrFields i).f1.toNat⟩ =
      some (.op [.ask .readMem, .writeR (.lit v) (.answer 0)])) :
    Completes i s (fun c u =>
      u.reqTask = s.reqTask ∧ (∃ later, u.calls = later ++ .readMem :: c.st.calls) ∧
        ((instrFields i).bs ≠ 1 ∨ constSel s.cfg (instrFields i) = true →
          readR u (BitVec.ofNat 5 v.toNat) = quirkValue s.cfg (BitVec.ofNat 5 v.toNat) s.input.readMem ∧
            ∀ j, j ≠ BitVec.ofNat 5 v.toNat → readR u j = readR s j)) := by
  refine completes_of_effects fun _ hready => ?_
  obtain ⟨-, -, hread, -⟩ := (ready_iff _ _).mp hready
  have hrun : (f1Effects id (readMemToR (v.extractLsb' 0 5))).Run (instrFields i) s := by
    refine f1Effects_run hready pbs pf2 (fun c hc => ?early) (fun c hc => ?late)
    case early => exact runF1_absent hc hne (resolve_of_empty_entry hearly)
    case late => exact (runF1_installed hc hne hlate).trans (runActs_readMemToR _ _ _)
  obtain ⟨hreq, hcalls, hr⟩ := readMemToR_end hrun hread rfl rfl rfl rfl rfl
  rw [← low5_eq]
  refine ⟨_, hrun, hreq, hcalls, fun hbs => ⟨?same, fun j hj => ?other⟩⟩
  case same => rw [readR, hr hbs, at32_set32_same]
  case other => rw [readR, hr hbs, at32_set32_other _ _ hj, readR]

/-! ## Installed F2 operations -/

theorem f2Effects_late (early late : Cyc → Cyc) (d : Microword) (s : State) :
    (f2Effects early late).late d s = bsLateEffect (late (f1LateEffect (aluPhase ((f2Effects early late).early d s)))) := rfl

/-- The late BS step of the default entry writes R, and nothing else of the cycle. -/
theorem bsLateEffect_st (c : Cyc) :
    (bsLateEffect c).st =
      { c.st with
        r := if c.d.bs = 1 ∧ constSel c.st.cfg c.d = false then set32 c.st.r c.rsel (quirkValue c.st.cfg c.rsel c.shifter)
          else c.st.r } := rfl

theorem bsLateEffect_nmod (c : Cyc) : (bsLateEffect c).nmod = c.nmod := rfl

/-- The late F1 step of the default entry records LOADMAR's call, and nothing else of the state. -/
theorem f1LateEffect_st (c : Cyc) :
    (f1LateEffect c).st =
      { c.st with
        calls := (if c.d.f1 = 1 ∧ c.d.f1 ≠ c.st.cfg.f1Const then [.loadMar c.rsel c.aluWord] else []) ++ c.st.calls } := rfl

/-- Where LOADR is dispatched, the default BS operation writes the shifter output to the register of the cycle's select. -/
theorem bsLateEffect_r_of_loadr {d : Microword} {s : State} {c : Cyc} (hc : InCycle d s c) (h1 : d.bs = 1)
    (hsel : constSel s.cfg d = false) :
    (bsLateEffect c).st.r = set32 c.st.r c.rsel (quirkValue s.cfg c.rsel c.shifter) := by
  have hdispatch : c.d.bs = 1 ∧ constSel c.st.cfg c.d = false := ⟨by rw [hc.d]; exact h1, by rw [hc.cfg, hc.d]; exact hsel⟩
  rw [bsLateEffect_st, if_pos hdispatch, hc.cfg]

/-- LOADR in a word with F2 effects of its own: the register and the shifter output are those before the late BS step. -/
theorem f2Effects_end_loadr {early late : Cyc → Cyc} {d : Microword} {s : State} {c : Cyc} {i : RegNum} {v : Word}
    (hrun : (f2Effects early late).Run d s) (hread : readReady s = true) (h1 : d.bs = 1) (hsel : constSel s.cfg d = false)
    (hc : late (f1LateEffect (aluPhase ((f2Effects early late).early d s))) = c) (hr : c.st.r = s.r) (hrsel : c.rsel = i)
    (hshifter : c.shifter = v) : ((f2Effects early late).end d s).r = set32 s.r i (quirkValue s.cfg i v) := by
  have hin : InCycle d s c := hc ▸ hrun.f2Late_inCycle hread
  rw [Effects.end, cycleEnd_r, f2Effects_late, hc, bsLateEffect_r_of_loadr hin h1 hsel, hr, hrsel, hshifter]

/-- The replaced register select of an installed early F2 operation. -/
def setRselTo (i : RegNum) (c : Cyc) : Cyc := { c with rsel := i }

/-- The branch of an installed late F2 operation on bit 0 of the bus. -/
def branchOnBus (c : Cyc) : Cyc := orNext (c.bus &&& 1) c

theorem runActs_setRsel_lit (n : Word) (c : Cyc) :
    runActs .early .f2 [.setRsel (.lit n)] c = .ok (setRselTo (n.extractLsb' 0 5) c) := rfl

theorem runActs_branchOnBus (fam : Family) (c : Cyc) :
    runActs .late fam [.orNext (.and .bus (.lit 1))] c = .ok (branchOnBus c) := rfl

theorem runActs_orNext_lit (fam : Family) (v : Word) (c : Cyc) :
    runActs .late fam [.orNext (.lit v)] c = .ok (orNext v c) := rfl

/-- The register select concerns READR only. -/
theorem sourceValue_rsel (d : Microword) (s : State) (i : RegNum) :
    sourceValue { d with rsel := i } s = if d.bs = 0 then readR s i else sourceValue d s := by
  unfold sourceValue
  split <;> rfl

/-- The bus with a replaced register select: READR reads it, the constant keeps the select of the word (R316). -/
theorem bus_setRselTo (d : Microword) (s : State) (i : RegNum) :
    (bsEarlyEffect (setRselTo i (onBus d s))).bus =
      readValue s &&& (if constSel s.cfg d then constWord s.cfg (constIndex d.rsel d.bs)
        else if d.bs = 0 then readR s i else sourceValue d s) := by
  rw [← sourceValue_rsel]
  change (readValue s &&& (if constSel s.cfg d then constWord s.cfg (constIndex d.rsel d.bs) else 0xFFFF)) &&&
    (if constSel s.cfg d then 0xFFFF else sourceValue { d with rsel := i } s) = _
  cases constSel s.cfg d <;> simp

/-- The cycle of a branching F2 operation before its late BS step. -/
theorem branchOnBus_late (c : Cyc) :
    (branchOnBus (f1LateEffect (aluPhase c))).st.r = c.st.r ∧ (branchOnBus (f1LateEffect (aluPhase c))).rsel = c.rsel ∧
      (branchOnBus (f1LateEffect (aluPhase c))).shifter = c.shifter ∧
      (branchOnBus (f1LateEffect (aluPhase c))).nmod = c.nmod ||| (c.bus &&& 1).extractLsb' 0 10 :=
  ⟨aluPhase_r c, rfl, aluPhase_shifter c, rfl⟩

theorem low10_bit_zero (v : Word) : (v &&& 1).extractLsb' 0 10 = if v.getLsbD 0 then (1 : MicroAddr) else 0 := by
  rw [low10_eq, BitVec.toNat_and]
  cases h : v.getLsbD 0 <;> simp [BitVec.getLsbD, Nat.testBit_zero] at h <;> simp [h, Nat.and_one_is_mod]

/-- Settles O35: between the early and the late F2 step the register select is the replaced one, for READR and for LOADR. -/
theorem f2SlotsRunInstalledOperations : Obligations.F2SlotsRunInstalledOperations := by
  intro i s n hcode hne _ hstay pbs pf1 hearly hlate
  refine completes_of_effects fun _ hready => ?_
  obtain ⟨-, -, hread, -⟩ := (ready_iff _ _).mp hready
  have hrun : (f2Effects (setRselTo (n.extractLsb' 0 5)) branchOnBus).Run (instrFields i) s := by
    refine f2Effects_run hready pbs pf1 (fun c hc => ?early) (fun c hc => ?late) fun c => rfl
    case early => exact (runF2_installed hc hne hearly).trans (runActs_setRsel_lit _ _)
    case late => exact (runF2_installed hc hne hlate).trans (runActs_branchOnBus _ _)
  have hin := hrun.f2Late_inCycle hread
  obtain ⟨hmpc, -⟩ := hrun.end_stay hread hstay
  obtain ⟨hlateR, hlateRsel, hlateShifter, hlateNmod⟩ :=
    branchOnBus_late ((f2Effects (setRselTo (n.extractLsb' 0 5)) branchOnBus).early (instrFields i) s)
  rw [← low5_eq]
  refine ⟨_, hrun, bus_setRselTo _ _ _, fun ⟨h1, hsel⟩ => ?loadr, fun hbs => ?r, ?mpc, ?sbank, ?wakeup⟩
  case loadr =>
    have hr := f2Effects_end_loadr hrun hread h1 hsel rfl hlateR hlateRsel hlateShifter
    exact ⟨by rw [readR, hr]; exact at32_set32_same _ _ _, fun j hj => by rw [readR, hr]; exact at32_set32_other _ _ hj⟩
  case r =>
    rw [Effects.end, cycleEnd_r]
    exact (bsLateEffect_r_of_no_loadr hin hbs).trans hlateR
  case mpc =>
    rw [hmpc, f2Effects_late, bsLateEffect_nmod, hlateNmod, low10_bit_zero, ← next_or_bit]
    exact congrArg ((instrFields i).next ||| ·) BitVec.zero_or
  case sbank =>
    rw [Effects.end, cycleEnd_sbank, f2Effects_late, bsLateEffect_st]
    exact aluPhase_sbank _
  case wakeup =>
    rw [Effects.end, cycleEnd_wakeup, f2Effects_late, bsLateEffect_st]
    exact aluPhase_wakeup _

/-- An installed late F2 operation injects its own bits, and the default one makes no call (R237). -/
theorem f2_replaced {i : Instr} {s : State} {v : Word} (hne : (instrFields i).f2 ≠ s.cfg.f2Const) (hstay : s.confTask = s.task)
    (pbs : constSel s.cfg (instrFields i) = true ∨ plainSlot s .bs (instrFields i).bs.toNat = true)
    (pf1 : (instrFields i).f1 = s.cfg.f1Const ∨ plainSlot s .f1 (instrFields i).f1.toNat = true)
    (hearly : lookupSlot s.cfg.table ⟨.early, s.task, .f2, (instrFields i).f2.toNat⟩ = none)
    (hlate : lookupSlot s.cfg.table ⟨.late, s.task, .f2, (instrFields i).f2.toNat⟩ = some (.op [.orNext (.lit v)])) :
    Completes i s (fun c u =>
      u.mpc = (instrFields i).next ||| BitVec.ofNat 10 (v.toNat % 1024) ∧ u.page = s.page ∧
        ((instrFields i).f1 ≠ 1 → u.calls = c.st.calls)) := by
  refine completes_of_effects fun _ hready => ?_
  obtain ⟨-, -, hread, -⟩ := (ready_iff _ _).mp hready
  have hrun : (f2Effects id (orNext v)).Run (instrFields i) s := by
    refine f2Effects_run hready pbs pf1 (fun c hc => runF2_early_none hc hne hearly hlate) (fun c hc => ?late) fun c => rfl
    exact (runF2_installed hc hne hlate).trans (runActs_orNext_lit _ _ _)
  obtain ⟨hmpc, hpage, hcalls⟩ := hrun.end_stay hread hstay
  refine ⟨_, hrun, ?mpc, ?page, fun h1 => ?calls⟩
  case mpc =>
    rw [hmpc, f2Effects_late, bsLateEffect_nmod, ← low10_eq]
    exact congrArg ((instrFields i).next ||| ·) BitVec.zero_or
  case page =>
    rw [hpage, f2Effects_late, bsLateEffect_st]
    exact aluPhase_page _
  case calls =>
    rw [hcalls, f2Effects_late, bsLateEffect_st]
    change (f1LateEffect (aluPhase _)).st.calls = _
    rw [f1LateEffect_st, if_neg (fun h => h1 h.1)]
    exact aluPhase_calls _

/-! ## Installed BS operations -/

theorem bsEffects_late (early late : Cyc → Cyc) (d : Microword) (s : State) :
    (bsEffects early late).late d s = late (f2LateEffect (f1LateEffect (aluPhase ((bsEffects early late).early d s)))) := rfl

/-- Off the constant path the bus before its source is the pending read's. -/
theorem onBus_bus {d : Microword} {s : State} (h : constSel s.cfg d = false) : (onBus d s).bus = readValue s := by
  unfold onBus
  rw [h]
  exact and_allOnes _

/-- The early S read of an installed BS operation. -/
def readSToBus (b : Nat) (c : Cyc) : Cyc := andBus ((readS c.st b c.rsel).getD 0) c

/-- The late S write of M of an installed BS operation. -/
def writeMToS (b : Nat) (c : Cyc) : Cyc := mapState (fun u => writeS u b c.rsel u.m) c

theorem rsel_low5 (i : RegNum) : (i.setWidth 16).extractLsb' 0 5 = i := by
  apply BitVec.eq_of_toNat_eq
  simp [i.isLt]

theorem runActs_readSToBus {b : Word} {c : Cyc} (fam : Family) (h : b.toNat < c.st.sregs.length) :
    runActs .early fam [.andBus (.readS (.lit b) .rsel)] c = .ok (readSToBus b.toNat c) := by
  obtain ⟨v, hv⟩ := readS_some c.rsel h
  simp [runActs, runAct, evalVal, bind, Except.bind, rsel_low5, hv, readSToBus]

theorem runActs_writeMToS {b : Word} {c : Cyc} (fam : Family) (h : b.toNat < c.st.cfg.sBanks) :
    runActs .late fam [.writeS (.lit b) .rsel .m] c = .ok (writeMToS b.toNat c) := by
  simp only [runActs, runAct, evalVal, bind, Except.bind, rsel_low5, h, if_true]
  rfl

/-- What a word without an L load leaves whose late BS operation writes M to an S register. -/
theorem writeMToS_end {early : Cyc → Cyc} {b : Nat} {d : Microword} {s : State} {c : Cyc} (hload : d.loadl = false)
    (hc : (bsEffects early (writeMToS b)).early d s = c) (hrsel : c.rsel = d.rsel) (hsregs : c.st.sregs = s.sregs)
    (hm : c.st.m = s.m) :
    ((bsEffects early (writeMToS b)).end d s).sregs = (writeS s b d.rsel s.m).sregs ∧
      ((bsEffects early (writeMToS b)).end d s).r = c.st.r ∧
      ((bsEffects early (writeMToS b)).end d s).sbank = c.st.sbank ∧
      ((bsEffects early (writeMToS b)).end d s).wakeup = c.st.wakeup := by
  rw [Effects.end, cycleEnd_sregs _ _ _ hload, cycleEnd_r, cycleEnd_sbank, cycleEnd_wakeup, bsEffects_late, hc]
  change (writeS _ b c.rsel _).sregs = _ ∧ (writeS _ b c.rsel _).r = _ ∧ (writeS _ b c.rsel _).sbank = _ ∧
    (writeS _ b c.rsel _).wakeup = _
  have hm' : (f2LateEffect (f1LateEffect (aluPhase c))).st.m = s.m := (aluPhase_m c).trans hm
  have hsregs' : (f2LateEffect (f1LateEffect (aluPhase c))).st.sregs = s.sregs := (aluPhase_sregs c).trans hsregs
  rw [writeS_r, writeS_sbank, writeS_wakeup, writeS_sregs_congr hsregs', hm', hrsel]
  exact ⟨rfl, aluPhase_r c, aluPhase_sbank c, aluPhase_wakeup c⟩

/-- Settles O33: the early read and the late write use the select and the bank of the slot's operations. -/
theorem busSourceSlotsRunInstalledOperations : Obligations.BusSourceSlotsRunInstalledOperations := by
  intro i s b v _ hb hsel pf1 pf2 hload hearly hlate hv
  refine completes_of_effects fun hs hready => ?_
  have hlen : b.toNat < s.sregs.length := by rw [hs.sregs]; exact hb
  have hrun : (bsEffects (readSToBus b.toNat) (writeMToS b.toNat)).Run (instrFields i) s := by
    refine bsEffects_run hready (.inr pf1) (.inr pf2) (fun c hc => ?early) (fun c hc => ?late) fun c => rfl
    case early => exact (runBs_installed hc hsel hearly).trans (runActs_readSToBus _ (by rw [hc.sregs]; exact hlen))
    case late => exact (runBs_installed hc hsel hlate).trans (runActs_writeMToS _ (by rw [hc.cfg]; exact hb))
  obtain ⟨hsregs, hr, hsbank, hwakeup⟩ := writeMToS_end (early := readSToBus b.toNat) (b := b.toNat) hload rfl rfl rfl rfl
  refine ⟨_, hrun, ?bus, ?same, fun b' k hother => ?other, hr, hsbank, hwakeup⟩
  case bus =>
    change (onBus (instrFields i) s).bus &&& (readS s b.toNat (instrFields i).rsel).getD 0 = _
    rw [onBus_bus hsel, hv]
    rfl
  case same => rw [readS_congr hsregs, readS_writeS hlen, if_pos ⟨rfl, rfl⟩]
  case other => rw [readS_congr hsregs, readS_writeS_other _ _ hother]

/-- An installed BS operation drives the bus in place of the default source, whose call and R write fall away (R189). -/
theorem bs_replaced {i : Instr} {s : State} {v : Word} (hsel : constSel s.cfg (instrFields i) = false)
    (pf1 : plainSlot s .f1 (instrFields i).f1.toNat = true) (pf2 : plainSlot s .f2 (instrFields i).f2.toNat = true)
    (hearly : lookupSlot s.cfg.table ⟨.early, s.task, .bs, (instrFields i).bs.toNat⟩ = some (.op [.andBus (.lit v)]))
    (hlate : lookupSlot s.cfg.table ⟨.late, s.task, .bs, (instrFields i).bs.toNat⟩ = some .absent) :
    Completes i s (fun c u => c.bus = readValue s &&& v ∧ c.st.calls = s.calls ∧ u.r = s.r) := by
  refine completes_of_effects fun _ hready => ?_
  have hrun : (bsEffects (andBus v) id).Run (instrFields i) s := by
    refine bsEffects_run hready (.inr pf1) (.inr pf2) (fun c hc => ?early) (fun c hc => ?late) fun c => rfl
    case early => exact (runBs_installed hc hsel hearly).trans (runActs_andBus_lit _ _ _)
    case late => exact runBs_absent hc hsel (resolve_of_empty_entry hlate)
  refine ⟨_, hrun, congrArg (· &&& v) (onBus_bus hsel), rfl, ?_⟩
  rw [Effects.end, cycleEnd_r, bsEffects_late]
  exact aluPhase_r _

/-- Settles O38, family by family. -/
theorem installedOperationsReplaceTheDefaults : Obligations.InstalledOperationsReplaceTheDefaults :=
  fun _ _ _ => ⟨bs_replaced, f2_replaced, fun hne _ => f1_replaced hne⟩

end Sys2Proof.Machine
end

section
/-! PROOFS. The shift rows whatever F1 has installed, the magic input of task 0, and the unfilled slots. -/

namespace Sys2Proof.Machine

/-! ## The shifts as arithmetic -/

theorem shl_one_toNat (l : Word) : (l <<< 1).toNat = 2 * l.toNat % 65536 := by
  rw [BitVec.toNat_shiftLeft, Nat.shiftLeft_eq, Nat.mul_comm]

theorem shr_one_toNat (l : Word) : (l >>> 1).toNat = l.toNat / 2 := by
  rw [BitVec.toNat_ushiftRight, Nat.shiftRight_eq_div_pow]

theorem swap_bytes_toNat (l : Word) : (l <<< 8 ||| l >>> 8).toNat = l.toNat % 256 * 256 + l.toNat / 256 := by
  have hlow : l.toNat / 256 < 2 ^ 8 := by omega
  have hhigh : (l <<< 8).toNat = 2 ^ 8 * (l.toNat % 256) := by
    rw [BitVec.toNat_shiftLeft, Nat.shiftLeft_eq]
    omega
  rw [BitVec.toNat_or, hhigh, BitVec.toNat_ushiftRight, Nat.shiftRight_eq_div_pow]
  exact (Nat.two_pow_add_eq_or_of_lt hlow _).symm.trans (by rw [Nat.mul_comm])

/-- A left shift with T[15] at bit 0 (R161). -/
theorem shl_one_magic_toNat (l t : Word) : (l <<< 1 ||| t >>> 15).toNat = 2 * l.toNat % 65536 + t.toNat / 32768 := by
  have hlow : t.toNat / 32768 < 2 ^ 1 := by omega
  have hhigh : (l <<< 1).toNat = 2 ^ 1 * (l.toNat % 32768) := by
    rw [shl_one_toNat]
    omega
  rw [BitVec.toNat_or, hhigh, BitVec.toNat_ushiftRight, Nat.shiftRight_eq_div_pow]
  refine (Nat.two_pow_add_eq_or_of_lt hlow _).symm.trans ?_
  omega

/-- A right shift with T[0] at bit 15 (R161). -/
theorem shr_one_magic_toNat (l t : Word) : (l >>> 1 ||| t <<< 15).toNat = l.toNat / 2 + t.toNat % 2 * 32768 := by
  have hlow : l.toNat / 2 < 2 ^ 15 := by omega
  have hhigh : (t <<< 15).toNat = 2 ^ 15 * (t.toNat % 2) := by
    rw [BitVec.toNat_shiftLeft, Nat.shiftLeft_eq]
    omega
  rw [BitVec.toNat_or, Nat.or_comm, hhigh, shr_one_toNat]
  refine (Nat.two_pow_add_eq_or_of_lt hlow _).symm.trans ?_
  omega

/-- The workaround concerns one register (R159). -/
theorem quirkValue_of_ne {c : Config} {i : RegNum} (h : i ≠ c.quirkReg) (v : Word) : quirkValue c i v = v := by
  rw [quirkValue_eq, if_neg (fun hq => h hq.2.1)]

/-! ## LOADR after F1 operations of any kind -/

/-- What the shifter and LOADR read from a cycle that started from `s`, where F2 has its default entry. -/
structure ShifterAt (d : Microword) (s : State) (c : Cyc) : Prop where
  cycle : InCycle d s c
  l     : c.st.l = s.l
  t     : c.st.t = s.t
  rsel  : c.rsel = d.rsel
  magic : c.magic = false

theorem ShifterAt.of_frame {ph : Phase} {fam : Family} {d : Microword} {s : State} {c c' : Cyc} (h : ShifterAt d s c)
    (f : PortFrame c c') (k : DispatchKeeps ph fam c c') (hfam : fam ≠ .f2) : ShifterAt d s c' where
  cycle := h.cycle.of_frame f
  l := f.l.trans h.l
  t := f.t.trans h.t
  rsel := (k.rsel hfam).trans h.rsel
  magic := (k.magic hfam).trans h.magic

theorem ShifterAt.aluPhase {d : Microword} {s : State} {c : Cyc} (h : ShifterAt d s c) : ShifterAt d s (aluPhase c) :=
  ⟨h.cycle.aluPhase, (aluPhase_l c).trans h.l, (aluPhase_t c).trans h.t, h.rsel, h.magic⟩

theorem ShifterAt.f2LateEffect {d : Microword} {s : State} {c : Cyc} (h : ShifterAt d s c) : ShifterAt d s (f2LateEffect c) :=
  ⟨⟨h.cycle.d, h.cycle.cfg, h.cycle.task, h.cycle.sregs⟩, h.l, h.t, h.rsel, h.magic⟩

theorem ShifterAt.shifter {d : Microword} {s : State} {c : Cyc} (h : ShifterAt d s c) :
    c.shifter = shifterOut d.f1 s.l s.t false := by
  rw [Cyc.shifter, h.cycle.d, h.l, h.t, h.magic]

/-- With a default F2 entry, the shifter before the late BS step is that of the word and of the old L and T. -/
theorem phases_shifterAt {d : Microword} {s : State} {c c' : Cyc} (hread : readReady s = true) (hf2 : ∀ ph, F2Default d s ph)
    (he : earlyPhase d s = .ok c) (hl : latePhase (aluPhase c) = .ok c') :
    ∃ c2, ShifterAt d s c2 ∧ runBs .late c2 = .ok c' := by
  obtain ⟨c0, c1, cb, h0, h1, hb, h3⟩ := earlyPhase_ok he
  obtain ⟨c0', h0', hbus⟩ := readPerform_eq (d := d) hread
  rw [h0'] at h0
  cases h0
  have hstart : ShifterAt d s (constantPath c0) := by
    rw [hbus]
    exact ⟨onBus_inCycle d s, rfl, rfl, rfl, rfl⟩
  rw [runF2_early_default hstart.cycle (hf2 .early)] at h1
  cases h1
  have hearly := ((hstart.of_frame (runBs_frame hb) (runBs_early_keeps hb) (by decide)).of_frame (runF1_frame h3)
    (runF1_keeps h3) (by decide)).aluPhase
  obtain ⟨c1, h1, hl⟩ := bind_ok hl
  obtain ⟨c2, h2, hl⟩ := bind_ok hl
  have hlate := hearly.of_frame (runF1_frame h1) (runF1_keeps h1) (by decide)
  rw [runF2_late_default hlate.cycle (hf2 .late)] at h2
  cases h2
  exact ⟨_, hlate.f2LateEffect, hl⟩

/-- LOADR with default BS and F2 entries writes the shifter output, whatever is installed for F1 (R160, R217). -/
theorem cycleEnd_loadr {d : Microword} {s : State} {c c' : Cyc} (hready : ready d s = true) (he : earlyPhase d s = .ok c)
    (hl : latePhase (aluPhase c) = .ok c') (h1 : d.bs = 1) (pbs : plainSlot s .bs 1 = true)
    (pf2 : plainSlot s .f2 d.f2.toNat = true) (hsel : constSel s.cfg d = false) (hq : d.rsel ≠ s.cfg.quirkReg) :
    readR (cycleEnd d c c') d.rsel = shifterOut d.f1 s.l s.t false := by
  obtain ⟨-, -, hread, hf2, hbs, -⟩ := (ready_iff _ _).mp hready
  have hslot : plainSlot s .bs d.bs.toNat = true := by
    rw [h1]
    exact pbs
  obtain ⟨c2, h2, hlate⟩ := phases_shifterAt hread (f2Default_of_ready hf2 (.inr pf2)) he hl
  rw [runBs_late_default h2.cycle (bsDefault_of_ready hbs (.inr hslot) _)] at hlate
  cases hlate
  rw [readR, cycleEnd_r, bsLateEffect_r_of_loadr h2.cycle h1 hsel, h2.rsel, at32_set32_same, quirkValue_of_ne hq, h2.shifter]

/-- Settles O25: the shifter output by the F1 code alone, as arithmetic. -/
theorem shiftRowsShiftL : Obligations.ShiftRowsShiftL := by
  intro rsel aluf bs f2 lt ll next s
  refine ⟨completes_of_phases fun _ hready c c' he hl h1 pbs pf2 hsel hq => ?left,
    completes_of_phases fun _ hready c c' he hl h1 pbs pf2 hsel hq => ?right,
    completes_of_phases fun _ hready c c' he hl h1 pbs pf2 hsel hq => ?swap⟩
  case left =>
    exact (congrArg BitVec.toNat (cycleEnd_loadr hready he hl h1 pbs pf2 hsel hq)).trans (shl_one_toNat s.l)
  case right =>
    exact (congrArg BitVec.toNat (cycleEnd_loadr hready he hl h1 pbs pf2 hsel hq)).trans (shr_one_toNat s.l)
  case swap =>
    exact (congrArg BitVec.toNat (cycleEnd_loadr hready he hl h1 pbs pf2 hsel hq)).trans (swap_bytes_toNat s.l)

/-! ## The magic input -/

/-- The magic input set by an installed F2 operation of task 0 (R161). -/
def setMagicOn (c : Cyc) : Cyc := { c with magic := true }

theorem runActs_setMagic {ph : Phase} {c : Cyc} (h : c.st.task = 0) : runActs ph .f2 [.setMagic] c = .ok (setMagicOn c) := by
  simp only [runActs, runAct, h, and_self, if_true]
  rfl

/-- The cycle of a word with the magic input before its late BS step. -/
theorem setMagicOn_late (c : Cyc) :
    (id (f1LateEffect (aluPhase c))).st.r = c.st.r ∧ (id (f1LateEffect (aluPhase c))).rsel = c.rsel ∧
      (id (f1LateEffect (aluPhase c))).shifter = c.shifter :=
  ⟨aluPhase_r c, rfl, aluPhase_shifter c⟩

/-- LOADR with the magic input set by F2 writes the shifter output with a bit of T chained in. -/
theorem magic_loadr {i : Instr} {s : State} (htask : s.task = 0) (hcode : 8 ≤ (instrFields i).f2.toNat)
    (hne : (instrFields i).f2 ≠ s.cfg.f2Const)
    (hearly : lookupSlot s.cfg.table ⟨.early, 0, .f2, (instrFields i).f2.toNat⟩ = some (.op [.setMagic]))
    (hlate : lookupSlot s.cfg.table ⟨.late, 0, .f2, (instrFields i).f2.toNat⟩ = none) (h1 : (instrFields i).bs = 1)
    (pbs : plainSlot s .bs (instrFields i).bs.toNat = true) (pf1 : plainSlot s .f1 (instrFields i).f1.toNat = true)
    (hsel : constSel s.cfg (instrFields i) = false) (hq : (instrFields i).rsel ≠ s.cfg.quirkReg) :
    Completes i s (fun _ u =>
      readR u (instrFields i).rsel = shifterOut (instrFields i).f1 s.l s.t true ∧
        ∀ j, j ≠ (instrFields i).rsel → readR u j = readR s j) := by
  refine completes_of_effects fun _ hready => ?_
  obtain ⟨-, -, hread, -⟩ := (ready_iff _ _).mp hready
  rw [← htask] at hearly hlate
  have hrun : (f2Effects setMagicOn id).Run (instrFields i) s := by
    refine f2Effects_run hready (.inr pbs) (.inr pf1) (fun c hc => ?early) (fun c hc => ?late) fun c => rfl
    case early => exact (runF2_installed hc hne hearly).trans (runActs_setMagic (hc.task.trans htask))
    case late => exact runF2_absent hc hne (resolve_of_other_phase (decide_eq_true hcode) hlate hearly)
  obtain ⟨hlateR, hlateRsel, hlateShifter⟩ := setMagicOn_late ((f2Effects setMagicOn id).early (instrFields i) s)
  have hr := f2Effects_end_loadr hrun hread h1 hsel rfl hlateR hlateRsel hlateShifter
  refine ⟨_, hrun, ?same, fun j hj => ?other⟩
  case same =>
    rw [readR, hr]
    exact (at32_set32_same _ _ _).trans (quirkValue_of_ne hq _)
  case other =>
    rw [readR, hr]
    exact at32_set32_other _ _ hj

theorem Completes.mono {i : Instr} {s : State} {P Q : Cyc → State → Prop} (h : Completes i s P) (hpq : ∀ c u, P c u → Q c u) :
    Completes i s Q := by
  intro hs hready
  obtain ⟨c, u, he, hu, hrun, hp⟩ := h hs hready
  exact ⟨c, u, he, hu, hrun, hpq c u hp⟩

/-- Settles O26: both shift directions, with the chained bit of T. -/
theorem magicShiftsChainT : Obligations.MagicShiftsChainT := by
  intro rsel aluf f2 lt ll next s left htask hcode hne hearly hlate pbs pf1 hsel hq
  cases left with
  | true =>
    refine (magic_loadr (i := .f1Llsh1 rsel aluf 1 f2 lt ll next) htask hcode hne hearly hlate rfl pbs pf1 hsel hq).mono ?_
    exact fun _ u ⟨hshift, hother⟩ => ⟨(congrArg BitVec.toNat hshift).trans (shl_one_magic_toNat s.l s.t), hother⟩
  | false =>
    refine (magic_loadr (i := .f1Lrsh1 rsel aluf 1 f2 lt ll next) htask hcode hne hearly hlate rfl pbs pf1 hsel hq).mono ?_
    exact fun _ u ⟨hshift, hother⟩ => ⟨(congrArg BitVec.toNat hshift).trans (shr_one_magic_toNat s.l s.t), hother⟩

/-! ## Unfilled slots -/

theorem dispatch_unset {ph : Phase} {fam : Family} {code : Nat} {dflt : Cyc → Except Stop Cyc} {d : Microword} {s : State}
    {c : Cyc} (hc : InCycle d s c) (hmpc : c.st.mpc = s.mpc) (hcode : taskSpecific fam code = true)
    (hp : plainSlot s fam code = true) : dispatch ph fam code dflt c = .error (.fatal (unsetFatal s fam code)) := by
  have hslot : resolve s.cfg ph s.task fam code = .unset := by rw [resolve_of_plainSlot hp, if_pos hcode]
  unfold dispatch
  rw [hc.cfg, hc.task, hslot, unsetFatal, hc.task, hmpc, unsetFatal]

/-- A cycle whose early phase stops with a fatal error ends halted with it, from its start state (R270). -/
theorem exec_of_early_fatal {i : Instr} {s : State} {f : Fatal} (hrun : s.run = .running)
    (hstall : stalled (instrFields i) s = false) (h : earlyPhase (instrFields i) s = .error (.fatal f)) :
    exec i s = .next { s with run := .halted f } := by
  have hbody : cycleBody (instrFields i) s = .error (.fatal f) := by
    unfold cycleBody
    rw [h]
    rfl
  rw [exec_of_running hrun hstall, hbody, cycleOutcome, takeFatal]

theorem earlyPhase_unset_f2 {d : Microword} {s : State} (hread : readReady s = true) (hcode : taskSpecific .f2 d.f2.toNat = true)
    (hne : d.f2 ≠ s.cfg.f2Const) (hp : plainSlot s .f2 d.f2.toNat = true) :
    earlyPhase d s = .error (.fatal (unsetFatal s .f2 d.f2.toNat)) := by
  obtain ⟨c0, h0, hbus⟩ := readPerform_eq (d := d) hread
  have hstop : runF2 .early (onBus d s) = .error (.fatal (unsetFatal s .f2 d.f2.toNat)) := by
    unfold runF2
    rw [(onBus_inCycle d s).d, (onBus_inCycle d s).cfg, if_neg hne]
    exact dispatch_unset (onBus_inCycle d s) rfl hcode hp
  unfold earlyPhase
  rw [h0]
  change (runF2 .early (constantPath c0) >>= _) = _
  rw [hbus, hstop]
  rfl

theorem earlyPhase_unset_bs {d : Microword} {s : State} (hs : s.WellFormed) (hread : readReady s = true)
    (hf2 : f2Ready d s = true) (hcode : taskSpecific .bs d.bs.toNat = true) (hsel : constSel s.cfg d = false)
    (hp : plainSlot s .bs d.bs.toNat = true) : earlyPhase d s = .error (.fatal (unsetFatal s .bs d.bs.toNat)) := by
  obtain ⟨c0, c1, h0, h1, i1, -⟩ := earlyF2_ready hs hread hf2
  have f1 := ((readPerform_frame h0).trans (constantPath_frame c0)).trans (runF2_frame h1)
  have hstop : runBs .early c1 = .error (.fatal (unsetFatal s .bs d.bs.toNat)) := by
    unfold runBs
    rw [i1.d, i1.cfg, hsel]
    exact dispatch_unset i1 f1.mpc hcode hp
  unfold earlyPhase
  rw [h0]
  change (runF2 .early (constantPath c0) >>= _) = _
  rw [h1]
  change (runBs .early c1 >>= _) = _
  rw [hstop]
  rfl

theorem earlyPhase_unset_f1 {d : Microword} {s : State} (hs : s.WellFormed) (hread : readReady s = true)
    (hf2 : f2Ready d s = true) (hbs : bsReady d s = true) (hcode : taskSpecific .f1 d.f1.toNat = true)
    (hne : d.f1 ≠ s.cfg.f1Const) (hp : plainSlot s .f1 d.f1.toNat = true) :
    earlyPhase d s = .error (.fatal (unsetFatal s .f1 d.f1.toNat)) := by
  obtain ⟨c, hc, hin, -⟩ := earlyBs_ready hs hread hf2 hbs
  have hstop : runF1 .early c = .error (.fatal (unsetFatal s .f1 d.f1.toNat)) := by
    unfold runF1
    rw [hin.d, hin.cfg, if_neg hne]
    exact dispatch_unset hin (beforeEarlyF1_frame hc).mpc hcode hp
  rw [earlyPhase_eq, hc]
  exact hstop

/-- Settles O48: the early phase stops at the first unfilled slot in the order F2, BS, F1. -/
theorem unsetSlotsAreFatal : Obligations.UnsetSlotsAreFatal := by
  intro i s hs hrun hstall hread
  refine ⟨fun hcode hne hp => ?f2, fun hf2 hcode hsel hp => ?bs, fun hf2 hbs hcode hne hp => ?f1⟩
  case f2 => exact exec_of_early_fatal hrun hstall (earlyPhase_unset_f2 hread hcode hne hp)
  case bs => exact exec_of_early_fatal hrun hstall (earlyPhase_unset_bs hs hread hf2 hcode hsel hp)
  case f1 => exact exec_of_early_fatal hrun hstall (earlyPhase_unset_f1 hs hread hf2 hbs hcode hne hp)

end Sys2Proof.Machine
end

section
/-! PROOFS. The switch evaluation (R254 to R257): no phase of a cycle reads the confirmed task, so a word with another task
confirmed does the same as one without, and then the switch. -/

namespace Sys2Proof.Machine

/-! ## Nothing in a cycle reads the confirmed task -/

/-- The same cycle with another confirmed task. -/
def withConf (k : Task) (c : Cyc) : Cyc := { c with st := { c.st with confTask := k } }

/-- The step does the same with another confirmed task, and leaves that confirmed task. -/
def IgnoresConf (k : Task) (f : Cyc → Except Stop Cyc) : Prop := ∀ c, f (withConf k c) = (f c).map (withConf k)

section ignoresConf

variable {k : Task} {c : Cyc}

theorem ok_withConf {f : Cyc → Except Stop Cyc} (h : IgnoresConf k f) {c' : Cyc} (hc : f c = .ok c') :
    f (withConf k c) = .ok (withConf k c') := by
  rw [h c, hc]
  rfl

/-- A step that starts by evaluating something that does not read the confirmed task. -/
theorem bind_withConf {α : Type} (x : Except Stop α) {f g : α → Except Stop Cyc} (h : ∀ a, g a = (f a).map (withConf k)) :
    (x >>= g) = (x >>= f).map (withConf k) := by
  cases x with
  | error e => rfl
  | ok a => exact h a

theorem guard_withConf {p : Prop} [Decidable p] {c c' : Cyc} (h : c' = withConf k c) :
    (if p then .ok c' else outsidePorts) = (if p then .ok c else outsidePorts : Except Stop Cyc).map (withConf k) := by
  rw [h]
  split <;> rfl

theorem evalVal_withConf (ph : Phase) (c : Cyc) (v : Val) : evalVal ph (withConf k c) v = evalVal ph c v := by
  induction v with
  | lit | bus | alu | aluc0 | shifter | l | t | m | laluc0 | rsel | task | mpc | device | answer => rfl
  | readR i ih => simp only [evalVal, ih]; rfl
  | readS b i ihb ihi => simp only [evalVal, ihb, ihi]; rfl
  | not a ih | shl a n ih | shr a n ih => simp only [evalVal, ih]
  | and a b iha ihb | or a b iha ihb | xor a b iha ihb | add a b iha ihb => simp only [evalVal, iha, ihb]
  | cond z a b ihz iha ihb => simp only [evalVal, ihz, iha, ihb]

theorem writeS_set_confTask (s : State) (b : Nat) (i : RegNum) (v : Word) :
    writeS { s with confTask := k } b i v = { writeS s b i v with confTask := k } := by
  unfold writeS
  split <;> simp_all

theorem arbitrate_ignoresConf : IgnoresConf k arbitrate := by
  intro c
  have hmask : highestWakeup (withConf k c).st.wakeup = highestWakeup c.st.wakeup := rfl
  unfold arbitrate
  rw [hmask]
  cases highestWakeup c.st.wakeup <;> rfl

theorem runQuery_ignoresConf (ph : Phase) (q : Query) : IgnoresConf k (runQuery ph · q) := by
  intro c
  cases q with
  | marStall i =>
    simp only [runQuery, evalVal_withConf]
    exact bind_withConf _ fun n => rfl
  | readMem | mouse | disp | writeStall | readStall | wakeups | requestedTask => rfl

theorem runAct_ignoresConf (ph : Phase) (fam : Family) (a : Act) : IgnoresConf k (runAct ph fam · a) := by
  intro c
  induction a with
  | andBus v | setRsel v | orNext v | setPage v =>
    simp only [runAct, evalVal_withConf]
    exact bind_withConf _ fun x => guard_withConf rfl
  | writeR i v | loadMar i v =>
    simp only [runAct, evalVal_withConf]
    exact bind_withConf _ fun n => bind_withConf _ fun x => rfl
  | writeS b i v =>
    simp only [runAct, evalVal_withConf]
    refine bind_withConf _ fun bn => bind_withConf _ fun n => bind_withConf _ fun x => guard_withConf ?_
    exact congrArg (fun u : State => { c with st := u }) (writeS_set_confTask c.st bn.toNat (n.extractLsb' 0 5) x)
  | setSBank j b =>
    simp only [runAct, evalVal_withConf]
    exact bind_withConf _ fun kn => bind_withConf _ fun bn => guard_withConf rfl
  | requestURamWrite | requestURamRead | setMagic | andReadMem =>
    simp only [runAct]
    exact guard_withConf rfl
  | writeMem v | device n v | wake v | unwake v =>
    simp only [runAct, evalVal_withConf]
    exact bind_withConf _ fun x => rfl
  | ask q => exact runQuery_ignoresConf ph q c
  | arbitrate => exact arbitrate_ignoresConf c
  | onlyIf z a ih =>
    simp only [runAct, evalVal_withConf, ih]
    refine bind_withConf _ fun x => ?_
    split <;> rfl
  | outside => rfl

theorem runActs_ignoresConf (ph : Phase) (fam : Family) (acts : List Act) : IgnoresConf k (runActs ph fam acts) := by
  induction acts with
  | nil => exact fun c => rfl
  | cons a rest ih =>
    intro c
    have ha : runAct ph fam (withConf k c) a = (runAct ph fam c a).map (withConf k) := runAct_ignoresConf ph fam a c
    simp only [runActs, ha]
    cases runAct ph fam c a with
    | error e => rfl
    | ok c' => exact ih c'

theorem dispatch_ignoresConf (ph : Phase) (fam : Family) (code : Nat) {dflt : Cyc → Except Stop Cyc} (h : IgnoresConf k dflt) :
    IgnoresConf k (dispatch ph fam code dflt) := by
  intro c
  have hslot : resolve (withConf k c).st.cfg ph (withConf k c).st.task fam code = resolve c.st.cfg ph c.st.task fam code := rfl
  unfold dispatch
  rw [hslot]
  cases resolve c.st.cfg ph c.st.task fam code with
  | installed acts => exact runActs_ignoresConf ph fam acts c
  | absent | unset => rfl
  | byDefault => exact h c

theorem bsEarlyDefault_ignoresConf (code : BitVec 3) : IgnoresConf k (bsEarlyDefault code) := by
  intro c
  unfold bsEarlyDefault
  split <;> rfl

theorem bsLateDefault_ignoresConf (code : BitVec 3) : IgnoresConf k (bsLateDefault code) := by
  intro c
  unfold bsLateDefault
  split <;> rfl

theorem f1EarlyDefault_ignoresConf (code : BitVec 4) : IgnoresConf k (f1EarlyDefault code) := by
  intro c
  unfold f1EarlyDefault
  split
  · exact arbitrate_ignoresConf c
  · rfl

theorem f1LateDefault_ignoresConf (code : BitVec 4) : IgnoresConf k (f1LateDefault code) := by
  intro c
  unfold f1LateDefault
  split <;> rfl

theorem branchIf_withConf (b : Bool) (c : Cyc) : branchIf b (withConf k c) = withConf k (branchIf b c) := by
  cases b <;> rfl

theorem f2LateDefault_ignoresConf (code : BitVec 4) : IgnoresConf k (f2LateDefault code) := by
  intro c
  unfold f2LateDefault
  split
  case h_1 | h_2 | h_3 | h_5 => exact congrArg Except.ok (branchIf_withConf _ c)
  all_goals rfl

theorem runBs_ignoresConf (ph : Phase) : IgnoresConf k (runBs ph) := by
  intro c
  unfold runBs
  change (if constSel c.st.cfg c.d then _ else _) = _
  split
  · rfl
  · cases ph with
    | early => exact dispatch_ignoresConf _ _ _ (bsEarlyDefault_ignoresConf _) c
    | late => exact dispatch_ignoresConf _ _ _ (bsLateDefault_ignoresConf _) c

theorem runF1_ignoresConf (ph : Phase) : IgnoresConf k (runF1 ph) := by
  intro c
  unfold runF1
  change (if c.d.f1 = c.st.cfg.f1Const then _ else _) = _
  split
  · rfl
  · cases ph with
    | early => exact dispatch_ignoresConf _ _ _ (f1EarlyDefault_ignoresConf _) c
    | late => exact dispatch_ignoresConf _ _ _ (f1LateDefault_ignoresConf _) c

theorem runF2_ignoresConf (ph : Phase) : IgnoresConf k (runF2 ph) := by
  intro c
  unfold runF2
  change (if c.d.f2 = c.st.cfg.f2Const then _ else _) = _
  split
  · rfl
  · cases ph with
    | early => exact dispatch_ignoresConf (dflt := .ok) _ _ _ (fun _ => rfl) c
    | late => exact dispatch_ignoresConf _ _ _ (f2LateDefault_ignoresConf _) c

theorem readPerform_ignoresConf : IgnoresConf k readPerform := by
  intro c
  have hread : uRamRead (withConf k c).st (ramBank (withConf k c).st.rdAddr) (ramWord (withConf k c).st.rdAddr)
      (ramHalf (withConf k c).st.rdAddr) =
    uRamRead c.st (ramBank c.st.rdAddr) (ramWord c.st.rdAddr) (ramHalf c.st.rdAddr) := rfl
  unfold readPerform
  rw [hread]
  change (if c.st.rdPend then if ramRomsel c.st.rdAddr then _ else _ else _) = _
  split
  · split
    · rfl
    · cases uRamRead c.st (ramBank c.st.rdAddr) (ramWord c.st.rdAddr) (ramHalf c.st.rdAddr) <;> rfl
  · rfl

theorem constantPath_withConf (c : Cyc) : constantPath (withConf k c) = withConf k (constantPath c) := by
  unfold constantPath
  change (if constSel c.st.cfg c.d then _ else _) = _
  split <;> rfl

theorem writeBack_set_confTask (s : State) (v : Word) :
    writeBack { s with confTask := k } v = { writeBack s v with confTask := k } := by
  unfold writeBack
  change (if s.wrPend then _ else _) = _
  split
  · simp only []
    cases bankInRange s.cfg (ramBank s.wrAddr) <;> rfl
  · rfl

theorem aluPhase_withConf (c : Cyc) : aluPhase (withConf k c) = withConf k (aluPhase c) :=
  congrArg (fun u : State => { c with alu := some (cycleAlu c), st := u }) (writeBack_set_confTask c.st (cycleAlu c).alu)

theorem earlyPhase_withConf {d : Microword} {s : State} (h : earlyPhase d s = .ok c) :
    earlyPhase d { s with confTask := k } = .ok (withConf k c) := by
  obtain ⟨c0, c1, c2, h0, h1, h2, h3⟩ := earlyPhase_ok h
  have h1' := ok_withConf (k := k) (runF2_ignoresConf .early) h1
  rw [← constantPath_withConf] at h1'
  exact andThen_ok (ok_withConf readPerform_ignoresConf h0) (andThen_ok h1'
    (andThen_ok (ok_withConf (runBs_ignoresConf .early) h2) (ok_withConf (runF1_ignoresConf .early) h3)))

theorem latePhase_withConf {c' : Cyc} (h : latePhase c = .ok c') : latePhase (withConf k c) = .ok (withConf k c') := by
  obtain ⟨c1, h1, h⟩ := bind_ok h
  obtain ⟨c2, h2, h3⟩ := bind_ok h
  exact andThen_ok (ok_withConf (runF1_ignoresConf .late) h1) (andThen_ok (ok_withConf (runF2_ignoresConf .late) h2)
    (ok_withConf (runBs_ignoresConf .late) h3))

theorem commit_set_confTask (d : Microword) (o : AluOut) (bus : Word) (s : State) :
    commit d o bus { s with confTask := k } = { commit d o bus s with confTask := k } := by
  have hL : commitL o { s with confTask := k } = { commitL o s with confTask := k } := by
    unfold commitL
    change (if ramRelated s.cfg s.task then _ else _) = _
    split
    · exact writeS_set_confTask { s with l := o.alu, laluc0 := latchedCarry o, m := o.alu } _ _ _
    · rfl
  unfold commit
  cases d.loadl <;> cases d.loadt <;> simp [hL]

end ignoresConf

/-! ## The switch -/

/-- The switch saves and restores address and page, makes its call, and touches nothing else. -/
theorem switchTo_eq (s : State) {j : Task} (h : j ≠ s.task) :
    switchTo s j =
      { s with
        task := j
        mpc := at16 s.taskMpc j
        page := at16 s.taskPage j
        taskMpc := set16 s.taskMpc s.task s.mpc
        taskPage := set16 s.taskPage s.task s.page
        calls := if s.cfg.becameActive.getLsbD j.toNat then .becameActive j :: s.calls else s.calls } := by
  unfold switchTo
  simp only [at16_set16_other _ _ h]
  split <;> rfl

theorem switchTo_set_confTask (s : State) (j k : Task) :
    switchTo { s with confTask := k } j = { switchTo s j with confTask := k } := by
  unfold switchTo
  simp only []
  split <;> rfl

theorem switchEvaluation_of_switch {s : State} (h : s.confTask ≠ s.task) :
    switchEvaluation s = { switchTo s s.confTask with confTask := s.reqTask } := by
  unfold switchEvaluation
  rw [if_pos h]

/-- Step 10 with another task confirmed is step 10 without, and then the switch. -/
theorem nextAddress_eq_switchTo (d : Microword) (n : MicroAddr) {s : State} {j k : Task} (hj : s.confTask = j)
    (hk : s.task = k) (h : j ≠ k) : nextAddress d n s = switchTo (nextAddress d n { s with confTask := k }) j := by
  subst hj hk
  calc nextAddress d n s
      = { switchTo { s with mpc := d.next ||| n } s.confTask with confTask := s.reqTask } :=
        switchEvaluation_of_switch (s := { s with mpc := d.next ||| n }) h
    _ = switchTo { s with mpc := d.next ||| n, confTask := s.reqTask } s.confTask :=
        (switchTo_set_confTask { s with mpc := d.next ||| n } s.confTask s.reqTask).symm
    _ = switchTo (nextAddress d n { s with confTask := s.task }) s.confTask :=
        (congrArg (switchTo · s.confTask) (nextAddress_stay d n { s with confTask := s.task } rfl)).symm

/-- A ready word with another task confirmed ends with the switch after the state that it ends in without. -/
theorem exec_eq_switchTo {i : Instr} {s : State} (hs : s.WellFormed) (hne : s.confTask ≠ s.task)
    (hready : ready (instrFields i) s = true) :
    ∃ u0, exec i { s with confTask := s.task } = .next u0 ∧ exec i s = .next (switchTo u0 s.confTask) ∧
      u0.task = s.task ∧ u0.taskMpc = s.taskMpc ∧ u0.taskPage = s.taskPage ∧ u0.cfg = s.cfg := by
  obtain ⟨hrun, hstall, -⟩ := (ready_iff _ _).mp hready
  obtain ⟨c, c', he, hl, -, hexec⟩ := readyWordsComplete i s hs hready
  have keep := phases_keep he hl
  have hl0 := latePhase_withConf (k := s.task) hl
  rw [← aluPhase_withConf] at hl0
  have hexec0 := exec_of_phases (i := i) (s := { s with confTask := s.task }) hrun hstall (earlyPhase_withConf he) hl0
  have hend : cycleEnd (instrFields i) (withConf s.task c) (withConf s.task c') = nextAddress (instrFields i) c'.nmod
      { commit (instrFields i) (cycleAlu c) c.bus c'.st with confTask := s.task } :=
    congrArg (nextAddress (instrFields i) c'.nmod) (commit_set_confTask _ _ _ _)
  rw [hend] at hexec0
  have htask : (commit (instrFields i) (cycleAlu c) c.bus c'.st).task = s.task := (commit_task _ _ _ _).trans keep.task
  have hconf : (commit (instrFields i) (cycleAlu c) c.bus c'.st).confTask = s.confTask :=
    (commit_confTask _ _ _ _).trans keep.confTask
  have htaskMpc := (commit_taskMpc (instrFields i) (cycleAlu c) c.bus c'.st).trans keep.taskMpc
  have htaskPage := (commit_taskPage (instrFields i) (cycleAlu c) c.bus c'.st).trans keep.taskPage
  have hcfg := (commit_cfg (instrFields i) (cycleAlu c) c.bus c'.st).trans keep.cfg
  generalize commit (instrFields i) (cycleAlu c) c.bus c'.st = v at *
  refine ⟨_, hexec0, hexec.trans (congrArg _ (nextAddress_eq_switchTo (instrFields i) c'.nmod hconf htask hne)), ?_⟩
  rw [nextAddress_stay _ _ { v with confTask := s.task } htask.symm]
  exact ⟨htask, htaskMpc, htaskPage, hcfg⟩

/-- Settles O52: the switch field by field, and the word whose phases do not read the confirmed task. -/
theorem switchSavesAndRestores : Obligations.SwitchSavesAndRestores := by
  refine ⟨fun s j hj => ⟨_, rfl, ?switch⟩, fun i s hs hne hready => ?word⟩
  case switch =>
    rw [switchTo_eq s hj]
    exact ⟨rfl, rfl, rfl, at16_set16_same _ _ _, at16_set16_same _ _ _,
      fun k hk => ⟨at16_set16_other _ _ hk, at16_set16_other _ _ hk⟩, rfl, rfl⟩
  case word =>
    obtain ⟨u0, hexec0, hexec, htask, htaskMpc, htaskPage, hcfg⟩ := exec_eq_switchTo hs hne hready
    refine ⟨_, u0, hexec, hexec0, htask, ?_⟩
    rw [switchTo_eq u0 (by rw [htask]; exact hne)]
    refine ⟨rfl, congrArg (at16 · s.confTask) htaskMpc, congrArg (at16 · s.confTask) htaskPage, ?saveMpc, ?savePage,
      fun k hk => ⟨?otherMpc, ?otherPage⟩, ?calls, rfl⟩
    case saveMpc | savePage =>
      rw [htask]
      exact at16_set16_same _ _ _
    case otherMpc =>
      rw [htask, htaskMpc]
      exact at16_set16_other _ _ hk
    case otherPage =>
      rw [htask, htaskPage]
      exact at16_set16_other _ _ hk
    case calls => rw [hcfg]

end Sys2Proof.Machine
end
